-- ==== Sys2Proof/Word.lean ====
section
/-! DEFINITION. The word types of the block (00_scope.md R10). -/

namespace Sys2Proof

/-- `UInt8`: a byte of a stream or of a frame, a bus ID, a count, a slot, the cursor. -/
abbrev Byte := BitVec 8

/-- `UInt16`: a sensor id. -/
abbrev SensorId := BitVec 16

/-- `UInt32`: a sensor value, the bit pattern of a signed 32-bit value (R10, 90_conflicts.md C8). -/
abbrev Value := BitVec 32

/-- `UInt64`: a frame in its 64-bit little-endian view `C` (20_memory.md R35). -/
abbrev Frame := BitVec 64

end Sys2Proof
end

