-- ==== Sys2Proof/Config.lean ====
section
/-! DEFINITION. The constants and parameters of 00_scope.md section 4 (R7), and the one free value of the model. -/

namespace Sys2Proof.Config

/-- `MARKER`, the frame-begin marker (R7). -/
def marker : Byte := 0x7E

/-- `ESC`, the stuff-marker (R7). -/
def esc : Byte := 0x7D

/-- `STUFF_MASK` (R7). -/
def stuffMask : Byte := 0x20

/-- `TYPE_SENSOR`, the sensor-data frame type (R7). -/
def typeSensor : Byte := 0x10

/-- `FRAME_LEN`, in bytes (R7). -/
def frameLen : Nat := 8

/-- The default of `CAPACITY` (00_scope.md section 4, D1). The capacity of a machine is the length of its table. -/
def defaultCapacity : Nat := 8

/-- The least `CAPACITY` (00_scope.md section 4). -/
def minCapacity : Nat := 1

/-- The greatest `CAPACITY` (00_scope.md section 4). -/
def maxCapacity : Nat := 255

/-- The parameters that State holds and no step changes (00_scope.md section 4). -/
structure Params where
  /-- `ID_WAIT_ABANDON`: whether the wait for the ID byte may end without a byte (R102, D11). -/
  idWaitAbandon : Bool
  /-- `TRANSPORT_ECHO`: whether the transport hands the block's own bytes back as input (D16). -/
  transportEcho : Bool
  deriving DecidableEq, Repr

/-- `ID_WAIT_ABANDON` false is the spec's default. DESIGN CHOICE (log 8, unsafe): no echo, for which the spec states "any value". -/
def defaultParams : Params := ⟨false, false⟩

/-- FREE VALUE (log 9, safe): what the line carries for the `n`-th byte transmitted, `b`. "transport write failures are not
observable at this layer" (R81), so it is any value: the byte, nothing, or something else. -/
opaque lineCarries (n : Nat) (b : Byte) : List Byte

/-- `LINE_RATE` in baud (00_scope.md section 4); informative, no rule reads it (R138). -/
def lineRate : Nat := 57600

/-- Bit times of one byte on an 8N1 line: one start bit, eight data bits, one stop bit (R138). -/
def bitTimesPerByte : Nat := 10

/-- Bit times that `wireBytes` bytes occupy on the line (R138); informative. -/
def lineBitTimes (wireBytes : Nat) : Nat := bitTimesPerByte * wireBytes

end Sys2Proof.Config
end

