-- ==== Sys2Proof/Syntax.lean ====
section
/-! DEFINITION. The syntax: every row of spec/opcode_table.json is a constructor of `Instr`; beside it, what the host and a
unit's boundary can present, and the context in which an input byte is decoded. -/

namespace Sys2Proof

/-- The state of the Poll State Machine (10_state.md R24). -/
inductive Fsm where
  /-- "waiting for frame-begin marker" -/
  | idle
  /-- "marker seen, waiting for one ID byte" -/
  | awaitingId
  deriving DecidableEq, Repr

/-- The column `format` of the opcode table. -/
inductive Format where
  | host
  | internal
  | rx
  | tx
  | frame
  deriving DecidableEq, Repr

/-- One row of the opcode table each, with the row's fields. -/
inductive Instr where
  /-- INITIALIZE (43_poll_fsm.md R91). -/
  | initializeDevice (busId : Byte) (activeSlotCount : Byte)
  /-- SET_SENSOR_DATA (42_sensor_table.md R85). -/
  | setSensorData (slot : Byte) (id : SensorId) (value : Value)
  /-- POLL (43_poll_fsm.md R93). -/
  | poll
  /-- COMPUTE_CRC (40_crc.md R66): its eight bytes in the 64-bit view of R35. -/
  | computeCrc (frame : Frame)
  /-- ENCODE_AND_SEND (41_frame_codec.md R74). -/
  | encodeAndSend (type : Byte) (sensorId : SensorId) (value : Value)
  /-- RX_MARKER (43_poll_fsm.md R97): the byte is 0x7E. -/
  | rxMarker
  /-- RX_DISCARD (43_poll_fsm.md R97). -/
  | rxDiscard (b : Byte)
  /-- RX_ID_REPLY (43_poll_fsm.md R98). -/
  | rxIdReply (b : Byte)
  /-- RX_ID_NOSLOT (43_poll_fsm.md R101). -/
  | rxIdNoslot (b : Byte)
  /-- RX_ID_MISMATCH (43_poll_fsm.md R98). -/
  | rxIdMismatch (b : Byte)
  /-- TX_LITERAL (30_encoding.md R56). -/
  | txLiteral (b : Byte)
  /-- TX_ESC_7E (30_encoding.md R56): the frame byte is 0x7E. -/
  | txEsc7e
  /-- TX_ESC_7D (30_encoding.md R56): the frame byte is 0x7D. -/
  | txEsc7d
  /-- FRAME_SENSOR_DATA (30_encoding.md R50): the type byte is 0x10. -/
  | frameSensorData (sensorId : SensorId) (value : Value) (crc : Byte)
  deriving DecidableEq, Repr

/-- A host transaction, selected by its kind (30_encoding.md R60). -/
inductive HostCall where
  | initializeDevice (busId : Byte) (activeSlotCount : Byte)
  | setSensorData (slot : Byte) (id : SensorId) (value : Value)
  | poll
  deriving DecidableEq, Repr

/-- A request at the boundary of an internal unit (30_encoding.md section 2): the two internal operations, a frame byte to be
encoded for output, and a frame. The host can present none of them (R60); see log 14. -/
inductive UnitCall where
  | computeCrc (frame : Frame)
  | encodeAndSend (type : Byte) (sensorId : SensorId) (value : Value)
  | txByte (b : Byte)
  | frame (c : Frame)
  deriving DecidableEq, Repr

/-- What decides the class of an input byte beside the byte itself (30_encoding.md R61). -/
structure RxContext where
  fsm : Fsm
  busId : Byte
  activeSlotCount : Byte
  deriving DecidableEq, Repr

/-- The format of an instruction's row. -/
def Instr.format : Instr → Format
  | .initializeDevice _ _ => .host
  | .setSensorData _ _ _ => .host
  | .poll => .host
  | .computeCrc _ => .internal
  | .encodeAndSend _ _ _ => .internal
  | .rxMarker => .rx
  | .rxDiscard _ => .rx
  | .rxIdReply _ => .rx
  | .rxIdNoslot _ => .rx
  | .rxIdMismatch _ => .rx
  | .txLiteral _ => .tx
  | .txEsc7e => .tx
  | .txEsc7d => .tx
  | .frameSensorData _ _ _ => .frame

end Sys2Proof
end

