-- ==== Sys2Proof/WellFormed.lean ====
section
/-! DEFINITION. Which terms of `Instr` stand for words of their row, in which context an RX row is the class of its byte, and
which arguments keep the caller's contract. -/

namespace Sys2Proof

/-- The part of a row's `condition` that reads the byte alone (opcode_table.json). An argument that a unit checks when it runs
(a slot, a count) is no matter of form. -/
def Instr.wellFormed : Instr → Bool
  | .initializeDevice _ _ => true
  | .setSensorData _ _ _ => true
  | .poll => true
  | .computeCrc _ => true
  | .encodeAndSend _ _ _ => true
  | .rxMarker => true
  | .rxDiscard b => b != Config.marker
  | .rxIdReply _ => true
  | .rxIdNoslot _ => true
  | .rxIdMismatch _ => true
  | .txLiteral b => b != Config.marker && b != Config.esc
  | .txEsc7e => true
  | .txEsc7d => true
  | .frameSensorData _ _ _ => true

/-- The part of an RX row's `condition` that reads the state (30_encoding.md R61); other rows have none. -/
def Instr.fits (ctx : RxContext) : Instr → Bool
  | .initializeDevice _ _ => true
  | .setSensorData _ _ _ => true
  | .poll => true
  | .computeCrc _ => true
  | .encodeAndSend _ _ _ => true
  | .rxMarker => ctx.fsm == .idle
  | .rxDiscard _ => ctx.fsm == .idle
  | .rxIdReply b => ctx.fsm == .awaitingId && b == ctx.busId && ctx.activeSlotCount != 0
  | .rxIdNoslot b => ctx.fsm == .awaitingId && b == ctx.busId && ctx.activeSlotCount == 0
  | .rxIdMismatch b => ctx.fsm == .awaitingId && b != ctx.busId
  | .txLiteral _ => true
  | .txEsc7e => true
  | .txEsc7d => true
  | .frameSensorData _ _ _ => true

/-- The bounds the opcode table's fields state for the caller: a count at most `CAPACITY` (R111), a slot below `CAPACITY`
(R112), byte 7 of a frame to be summed 0x00 (R67). A host call that breaks its bound is rejected when it runs. -/
def Instr.keepsContract (capacity : Nat) : Instr → Bool
  | .initializeDevice _ n => decide (n.toNat ≤ capacity)
  | .setSensorData slot _ _ => decide (slot.toNat < capacity)
  | .poll => true
  | .computeCrc c => c.extractLsb' 56 8 == 0
  | .encodeAndSend _ _ _ => true
  | .rxMarker => true
  | .rxDiscard _ => true
  | .rxIdReply _ => true
  | .rxIdNoslot _ => true
  | .rxIdMismatch _ => true
  | .txLiteral _ => true
  | .txEsc7e => true
  | .txEsc7d => true
  | .frameSensorData _ _ _ => true

end Sys2Proof
end

