-- ==== Sys2Proof/Decode.lean ====
section
/-! DEFINITION. The two views of a frame, the decoder of every format of 30_encoding.md, and after it the encoder. -/

namespace Sys2Proof

/-! ### The byte view of a frame (20_memory.md R35) -/

/-- `F[k] = C[8k+7 : 8k]`. -/
def frameByte (c : Frame) (k : Nat) : Byte := c.extractLsb' (8 * k) 8

/-- `F[0], ..., F[7]`, in order. -/
def frameBytes (c : Frame) : List Byte :=
  [frameByte c 0, frameByte c 1, frameByte c 2, frameByte c 3, frameByte c 4, frameByte c 5, frameByte c 6, frameByte c 7]

/-- The fields of a frame (30_encoding.md R50). -/
structure FrameFields where
  type : Byte
  sensorId : SensorId
  value : Value
  crc : Byte
  deriving DecidableEq, Repr

/-- The fields of a frame, recovered from its eight bytes (30_encoding.md R51). -/
def fieldsOfBytes (f0 f1 f2 f3 f4 f5 f6 f7 : Byte) : FrameFields :=
  { type := f0
    sensorId := f1.zeroExtend 16 ||| (f2.zeroExtend 16 <<< 8)
    value := f3.zeroExtend 32 ||| (f4.zeroExtend 32 <<< 8) ||| (f5.zeroExtend 32 <<< 16) ||| (f6.zeroExtend 32 <<< 24)
    crc := f7 }

/-! ### Decoding -/

/-- What is decoded: a host transaction, a request at a unit's boundary, or the bytes of the input stream in their context. -/
inductive Encoded where
  | host (c : HostCall)
  | unit (u : UnitCall)
  | rx (ctx : RxContext) (bytes : List Byte)
  deriving DecidableEq, Repr

/-- Why something decodes to no instruction. -/
inductive DecodeError where
  /-- The input stream holds no byte. -/
  | noInputByte
  /-- Fewer than eight bytes of a frame. -/
  | shortFrame
  /-- A frame whose type byte is not 0x10: "The source assigns no meaning to any other type value" (R53). -/
  | notSensorDataFrame (type : Byte)
  deriving DecidableEq, Repr

/-- HOST: selected by the kind of the transaction (30_encoding.md section 2, R60). -/
def decodeHost : HostCall → Instr
  | .initializeDevice busId n => .initializeDevice busId n
  | .setSensorData slot id value => .setSensorData slot id value
  | .poll => .poll

/-- RX: the class of one input byte (30_encoding.md R61). No byte is illegal (R63). -/
def decodeRxByte (ctx : RxContext) (b : Byte) : Instr :=
  match ctx.fsm with
  | .idle => if b = Config.marker then .rxMarker else .rxDiscard b
  | .awaitingId =>
    if b = ctx.busId then
      if ctx.activeSlotCount = 0 then .rxIdNoslot b else .rxIdReply b
    else .rxIdMismatch b

/-- RX: the oldest byte of the input stream, and the rest of the stream. -/
def decodeRx (ctx : RxContext) : List Byte → Except DecodeError (Instr × List Byte)
  | [] => .error .noInputByte
  | b :: rest => .ok (decodeRxByte ctx b, rest)

/-- TX: the output encoding of one frame byte (30_encoding.md R56). -/
def decodeTxByte (b : Byte) : Instr :=
  if b = Config.marker then .txEsc7e else if b = Config.esc then .txEsc7d else .txLiteral b

/-- FRAME: eight bytes, of type 0x10 (30_encoding.md R50, R51), and the bytes after them. -/
def decodeFrame : List Byte → Except DecodeError (Instr × List Byte)
  | f0 :: f1 :: f2 :: f3 :: f4 :: f5 :: f6 :: f7 :: rest =>
    let f := fieldsOfBytes f0 f1 f2 f3 f4 f5 f6 f7
    if f.type = Config.typeSensor then .ok (.frameSensorData f.sensorId f.value f.crc, rest)
    else .error (.notSensorDataFrame f.type)
  | _ => .error .shortFrame

/-- INTERNAL, TX and FRAME, at a unit's boundary. -/
def decodeUnit : UnitCall → Except DecodeError Instr
  | .computeCrc c => .ok (.computeCrc c)
  | .encodeAndSend type id value => .ok (.encodeAndSend type id value)
  | .txByte b => .ok (decodeTxByte b)
  | .frame c => (decodeFrame (frameBytes c)).map Prod.fst

/-- The decoder of every format, total: the instruction and the bytes left over. -/
def decode : Encoded → Except DecodeError (Instr × List Byte)
  | .host c => .ok (decodeHost c, [])
  | .unit u => (decodeUnit u).map fun i => (i, [])
  | .rx ctx bytes => decodeRx ctx bytes

/-! ### Encoding -/

/-- The 64-bit pattern of a frame, most significant bit first: crc, value, sensorId, type (30_encoding.md R50). -/
def frameWord (type : Byte) (sensorId : SensorId) (value : Value) (crc : Byte) : Frame :=
  crc ++ value ++ sensorId ++ type

/-- The encoded form of an instruction. An RX row is its byte, read in the context `ctx`. -/
def encode (ctx : RxContext) : Instr → Encoded
  | .initializeDevice busId n => .host (.initializeDevice busId n)
  | .setSensorData slot id value => .host (.setSensorData slot id value)
  | .poll => .host .poll
  | .computeCrc c => .unit (.computeCrc c)
  | .encodeAndSend type id value => .unit (.encodeAndSend type id value)
  | .rxMarker => .rx ctx [0x7E]
  | .rxDiscard b => .rx ctx [b]
  | .rxIdReply b => .rx ctx [b]
  | .rxIdNoslot b => .rx ctx [b]
  | .rxIdMismatch b => .rx ctx [b]
  | .txLiteral b => .unit (.txByte b)
  | .txEsc7e => .unit (.txByte 0x7E)
  | .txEsc7d => .unit (.txByte 0x7D)
  | .frameSensorData id value crc => .unit (.frame (frameWord 0x10 id value crc))

/-! ### Words of the opcode table, by their bits alone -/

/-- The space in which a table word is read, when its bits are all there is (log 15): an 8-bit word by the rows with a fixed
pattern first, in the table's order (0x7E is RX_MARKER, 0x7D is TX_ESC_7D), then by the catch-all rows in the table's order
(RX_DISCARD); a wider word, up to 64 bits, as a frame. -/
def tableWord (nbits w : Nat) : Option Encoded :=
  if nbits = 8 then
    let b := BitVec.ofNat 8 w
    if b = 0x7D then some (.unit (.txByte b)) else some (.rx ⟨.idle, 0, 0⟩ [b])
  else if nbits ≤ 64 ∧ 8 < nbits then some (.unit (.frame (BitVec.ofNat 64 w)))
  else none

/-- The instruction the decoder reads from a table word (log 15). -/
def decodeTableWord (nbits w : Nat) : Option Instr :=
  match tableWord nbits w with
  | none => none
  | some e =>
    match decode e with
    | .ok (i, _) => some i
    | .error _ => none

end Sys2Proof
end

