-- ==== Sys2Proof/Machine/State.lean ====
section
/-! DEFINITION. The machine's state as plain data, the outcomes of its own, and the machine right after reset
(10_state.md R12, 70_reset_and_hazards.md R129). -/

namespace Sys2Proof.Machine

/-- Why the machine stops with a fault. -/
inductive Fault where
  /-- Raised by RX_ID_REPLY when the cursor names a slot at or above `CAPACITY`, which "does not exist" (20_memory.md R42). No
  reachable state raises it (42_sensor_table.md R90). Safe (log 17). -/
  | noSuchSlot (slot : Byte)
  deriving DecidableEq, Repr

/-- Why the machine gives no meaning to what it is asked to execute. -/
inductive Refusal where
  /-- Raised by an arm of `exec` whose instruction has no meaning yet. Safe. -/
  | notModelled (mnemonic : String)
  /-- Raised by an RX or TX row executed on a byte or in a state outside the `condition` of the row: the spec gives the row no
  effect there, and no byte decodes to it. Safe (log 16). -/
  | conditionNotMet (mnemonic : String)
  /-- Raised by the step when what is presented at the unit port decodes to no instruction: a frame of another type than 0x10, to
  which "the source assigns no meaning" (30_encoding.md R53). Safe (log 14). -/
  | undecodable (e : DecodeError)
  deriving DecidableEq, Repr

/-- The direction of the half-duplex line (10_state.md R25, 60_exceptions.md R125). -/
inductive Dir where
  | rx
  | tx
  deriving DecidableEq, Repr

/-- One entry of the sensor table (10_state.md R18). -/
structure SensorEntry where
  id : SensorId
  value : Value
  deriving DecidableEq, Repr

/-- `{id: 0x0000, value: 0x00000000}` (10_state.md R19). -/
def SensorEntry.zero : SensorEntry := ⟨0, 0⟩

/-- The sensor table: entry `k` is slot `k`, and the length is `CAPACITY` (10_state.md R18; log 6). -/
abbrev Table := List SensorEntry

/-- `1 ≤ CAPACITY ≤ 255` (00_scope.md section 4). -/
def Table.wf (t : Table) : Bool := decide (Config.minCapacity ≤ t.length ∧ t.length ≤ Config.maxCapacity)

/-- The status a host transaction returns (60_exceptions.md R108). -/
inductive Status where
  | ok
  | rejNotInit
  | rejAlreadyInit
  | rejBadCount
  | rejBadSlot
  deriving DecidableEq, Repr

/-- A transport event (00_scope.md R9): `Rd(b)`, `Wr(b)`, `Fl`, `Dir(d)`. -/
inductive Event where
  | rd (b : Byte)
  | wr (b : Byte)
  | fl
  | dir (d : Dir)
  deriving DecidableEq, Repr

/-- One move of the host or of the transport and bus (10_state.md section 1; log 4). -/
inductive EnvMove where
  /-- The host issues a transaction, once the one before has returned (R11). -/
  | call (c : HostCall)
  /-- The `rx` line of 30_encoding.md R65: the bytes become available once the block waits, for a transaction or for an ID byte,
  and the line is the first of these moves (log 27). -/
  | rx (bytes : List Byte)
  /-- The bytes become available at once, "including while a host transaction runs" (R11). -/
  | rxNow (bytes : List Byte)
  /-- The block moves before the next of these moves. -/
  | wait
  /-- The transport hands back the oldest `n` bytes of the block's own transmission (`TRANSPORT_ECHO`, D16). -/
  | echo (n : Nat)
  /-- The timeout policy ends a wait for the ID byte (43_poll_fsm.md R102), if `ID_WAIT_ABANDON` is true. -/
  | abandon
  /-- Reset (70_reset_and_hazards.md R129). -/
  | reset
  deriving DecidableEq, Repr

/-- The transient state of a reply (10_state.md R27), not retained after it. -/
structure Codec where
  /-- The frame buffer `F[0..7]` in its 64-bit view `C` (20_memory.md R35). -/
  frame : Frame
  /-- The accumulator of the CRC Engine (40_crc.md R66). -/
  acc : BitVec 16
  /-- What `computeCRC` returned to the Frame Codec (40_crc.md R73); the model's own field (log 13). -/
  crcOut : Byte
  deriving DecidableEq, Repr

/-- DESIGN CHOICE (log 12, unsafe): the value the transient state has outside a reply. -/
def Codec.reset : Codec := ⟨0, 0, 0⟩

/-- The transport's state (10_state.md R28). -/
structure Transport where
  /-- The input buffer, oldest byte first. -/
  input : List Byte
  /-- The bytes queued by `T.write` and not yet transmitted, oldest first. -/
  output : List Byte
  /-- How many bytes have been transmitted: the index of the free value `Config.lineCarries` (log 9). -/
  sent : Nat
  /-- What the line has carried (log 9). -/
  line : List Byte
  /-- Own bytes transmitted and still to be handed back as input (log 8). -/
  echo : List Byte
  deriving DecidableEq, Repr

/-- DESIGN CHOICE (log 18, unsafe): the transport at `State.reset`; the spec's reset does not touch it. -/
def Transport.empty : Transport := ⟨[], [], 0, [], []⟩

/-- The state. The first seven fields are the block's architectural state, "exactly the seven fields" of 10_state.md R12. -/
structure State where
  /-- `S.init` (R26). -/
  init : Bool
  /-- `S.busId` (R15). -/
  busId : Byte
  /-- `S.activeSlotCount` (R16). -/
  activeSlotCount : Byte
  /-- `S.table` (R18). -/
  table : Table
  /-- `S.cursor` (R22). -/
  cursor : Byte
  /-- `S.fsm` (R24). -/
  fsm : Fsm
  /-- `S.dir` (R25). -/
  dir : Dir
  /-- The transient state of a reply (R27). -/
  codec : Codec
  /-- A `poll` has been issued and has not returned (R93, R102). -/
  polling : Bool
  /-- A request at the boundary of an internal unit (log 14): no step sets it. -/
  unit : Option UnitCall
  /-- The transport (R28). -/
  transport : Transport
  /-- The moves of host, transport and bus still to come, oldest first (log 4). -/
  env : List EnvMove
  /-- The transport events so far, oldest first (R9; log 22). -/
  trace : List Event
  /-- The statuses returned to the host so far, oldest first (R9; log 22). -/
  statuses : List Status
  /-- The parameters (00_scope.md section 4). -/
  params : Config.Params
  deriving DecidableEq, Repr

/-- The machine right after reset, for any `CAPACITY` and any parameters (70_reset_and_hazards.md R129). -/
def State.resetFor (capacity : Nat) (params : Config.Params) : State :=
  { init := false
    busId := 0x00
    activeSlotCount := 0
    table := List.replicate capacity SensorEntry.zero
    cursor := 0
    fsm := .idle
    dir := .rx
    codec := Codec.reset
    polling := false
    unit := none
    transport := Transport.empty
    env := []
    trace := []
    statuses := []
    params := params }

/-- The machine right after reset, at the spec's defaults of the parameters (log 6, 7, 8). -/
def State.reset : State := State.resetFor Config.defaultCapacity Config.defaultParams

end Sys2Proof.Machine
end

