-- ==== Sys2Proof/Machine/Ops.lean ====
section
/-! DEFINITION. The named operations over the state: field updates, the five calls of the transport (60_exceptions.md R121 to
R125), the table's accesses, the return and the rejection of a host transaction, and reset. -/

namespace Sys2Proof.Machine

/-! ### Field updates -/

/-- Writes the three fields that `initialize` alone writes (10_state.md R17, R26). -/
def State.configure (s : State) (busId activeSlotCount : Byte) : State :=
  { s with init := true, busId := busId, activeSlotCount := activeSlotCount }

def State.setTable (s : State) (t : Table) : State := { s with table := t }
def State.setCursor (s : State) (c : Byte) : State := { s with cursor := c }
def State.setFsm (s : State) (f : Fsm) : State := { s with fsm := f }
def State.setDir (s : State) (d : Dir) : State := { s with dir := d }
def State.setCodec (s : State) (c : Codec) : State := { s with codec := c }
def State.setPolling (s : State) (p : Bool) : State := { s with polling := p }
def State.setUnit (s : State) (u : Option UnitCall) : State := { s with unit := u }
def State.setTransport (s : State) (t : Transport) : State := { s with transport := t }
def State.setEnv (s : State) (e : List EnvMove) : State := { s with env := e }
/-- Records a transport event (00_scope.md R9). -/
def State.pushEvent (s : State) (e : Event) : State := { s with trace := s.trace ++ [e] }
/-- Records a status returned to the host (60_exceptions.md R108). -/
def State.pushStatus (s : State) (st : Status) : State := { s with statuses := s.statuses ++ [st] }

/-- What decides the class of the next input byte (30_encoding.md R61). -/
def State.rxContext (s : State) : RxContext := ⟨s.fsm, s.busId, s.activeSlotCount⟩

/-! ### The end of a host transaction (60_exceptions.md R108, R118) -/

/-- `return OK`. -/
def returnOk (s : State) : State := s.pushStatus .ok

/-- `reject(code)`: the status is returned; no state of the block changes and no transport event occurs (R108). There is no trap
entry and nothing is saved (R118). The run is a run at fault (log 1; `Safety.noRejection`). -/
def reject (code : Status) (s : State) : State := s.pushStatus code

/-! ### The sensor table -/

/-- `CAPACITY` (log 6). -/
def State.capacity (s : State) : Nat := s.table.length

/-- One whole entry, read at once (20_memory.md R40, 42_sensor_table.md R90); none where the slot does not exist (R42). -/
def readEntry (slot : Byte) (s : State) : Option SensorEntry := s.table[slot.toNat]?

/-- One whole entry, written at once (20_memory.md R40, 42_sensor_table.md R85). -/
def writeEntry (slot : Byte) (e : SensorEntry) (s : State) : State := s.setTable (s.table.set slot.toNat e)

/-- Every entry zero (43_poll_fsm.md R91). -/
def clearTable (s : State) : State := s.setTable (List.replicate s.capacity SensorEntry.zero)

/-! ### The transport's calls -/

/-- `T.available()` (60_exceptions.md R121): no side effect, no event. -/
def available (s : State) : Bool := !s.transport.input.isEmpty

/-- `T.read()` (60_exceptions.md R122): the oldest byte and the state without it, its event recorded. -/
def readByte (s : State) : Option (Byte × State) :=
  match s.transport.input with
  | [] => none
  | b :: rest => some (b, (s.setTransport { s.transport with input := rest }).pushEvent (.rd b))

/-- `T.write(b)` (60_exceptions.md R123): queues the byte; no result is read. -/
def writeByte (b : Byte) (s : State) : State :=
  (s.setTransport { s.transport with output := s.transport.output ++ [b] }).pushEvent (.wr b)

/-- `T.write` of each byte, in order. -/
def writeBytes : List Byte → State → State
  | [], s => s
  | b :: rest, s => writeBytes rest (writeByte b s)

/-- What the line carries for the bytes transmitted from the `n`-th on (log 9). -/
def lineBytes (n : Nat) : List Byte → List Byte
  | [] => []
  | b :: rest => Config.lineCarries n b ++ lineBytes (n + 1) rest

/-- The transport once every queued byte has been transmitted (60_exceptions.md R124); with `TRANSPORT_ECHO` they are on their
way back as input (log 8). -/
def Transport.drained (t : Transport) (echoes : Bool) : Transport :=
  { input := t.input
    output := []
    sent := t.sent + t.output.length
    line := t.line ++ lineBytes t.sent t.output
    echo := if echoes then t.echo ++ t.output else t.echo }

/-- `T.flush()` (60_exceptions.md R124; log 10). -/
def flush (s : State) : State := (s.setTransport (s.transport.drained s.params.transportEcho)).pushEvent .fl

/-- `T.setDir(d); S.dir <- d` (60_exceptions.md R125, 41_frame_codec.md R74). -/
def setDirection (d : Dir) (s : State) : State := (s.setDir d).pushEvent (.dir d)

/-- The transport makes bytes available, in order (10_state.md R11, 20_memory.md R45). -/
def deliver (bytes : List Byte) (s : State) : State :=
  s.setTransport { s.transport with input := s.transport.input ++ bytes }

/-- The transport hands the oldest `n` of the block's own bytes back as input (log 8). -/
def deliverEcho (n : Nat) (s : State) : State :=
  s.setTransport { s.transport with
    input := s.transport.input ++ s.transport.echo.take n
    echo := s.transport.echo.drop n }

/-! ### Reset -/

/-- Reset puts every field of the block's state to its reset value, causes no transport event and does not touch the transport's
buffers (70_reset_and_hazards.md R129). A `poll` in progress returns no status (log 19). -/
def resetBlock (s : State) : State :=
  { s with
    init := false
    busId := 0x00
    activeSlotCount := 0
    table := List.replicate s.capacity SensorEntry.zero
    cursor := 0
    fsm := .idle
    dir := .rx
    codec := Codec.reset
    polling := false }

end Sys2Proof.Machine
end

