-- ==== Sys2Proof/Machine/Operands.lean ====
section
/-! DEFINITION. How operands reach the frame (30_encoding.md R62, 41_frame_codec.md R75), the byte write of the frame buffer
(20_memory.md R37), and the cursor's arithmetic (43_poll_fsm.md R100). -/

namespace Sys2Proof.Machine

/-- `type | (sensorId << 8) | (value << 24)`, every operand zero-extended to 64 bits first (41_frame_codec.md R75,
90_conflicts.md C3). -/
def composite (type : Byte) (sensorId : SensorId) (value : Value) : Frame :=
  type.zeroExtend 64 ||| (sensorId.zeroExtend 64 <<< 8) ||| (value.zeroExtend 64 <<< 24)

/-- A write of byte 7 through the byte view changes `C[63:56]` and no other bit (20_memory.md R37). -/
def setByte7 (c : Frame) (b : Byte) : Frame :=
  (c &&& (0x00FFFFFFFFFFFFFF : Frame)) ||| (b.zeroExtend 64 <<< 56)

/-- `(cursor + 1) mod activeSlotCount`, computed exactly (43_poll_fsm.md R100). -/
def nextCursor (cursor activeSlotCount : Byte) : Byte :=
  BitVec.ofNat 8 ((cursor.toNat + 1) % activeSlotCount.toNat)

end Sys2Proof.Machine
end

