-- ==== Sys2Proof/Machine/Crc.lean ====
section
/-! DEFINITION. The CRC Engine (40_crc.md): COMPUTE_CRC. -/

namespace Sys2Proof.Machine

/-- One iteration of the loop of 40_crc.md R66, at the accumulator's 16 bits. -/
def crcStep (acc : BitVec 16) (b : Byte) : BitVec 16 :=
  let added := acc + b.zeroExtend 16
  let folded := (added + (added >>> 8)) &&& 0x00FF
  (folded + (folded >>> 8)) &&& 0x00FF

/-- The accumulator after the bytes, from 0 (40_crc.md R66). -/
def crcAccumulate (bytes : List Byte) : BitVec 16 := bytes.foldl crcStep 0

/-- `computeCRC`: the complement of the accumulator's low 8 bits, over all eight bytes (40_crc.md R66). -/
def computeCRC (c : Frame) : Byte := (~~~(crcAccumulate (frameBytes c))).extractLsb' 0 8

/-- The CRC Engine at work: the accumulator, and the result handed back (40_crc.md R66, R73). -/
def runCrc (c : Frame) (s : State) : State :=
  s.setCodec { s.codec with acc := crcAccumulate (frameBytes c), crcOut := computeCRC c }

/-- COMPUTE_CRC (40_crc.md R66, R67): total, no failure modes. -/
def execComputeCrc (c : Frame) (s : State) : Host.Outcome State Fault Refusal :=
  .next (runCrc c s)

end Sys2Proof.Machine
end

