-- ==== Sys2Proof/Machine/FrameCodec.lean ====
section
/-! DEFINITION. The Frame Codec (41_frame_codec.md): ENCODE_AND_SEND, the frame format FRAME_SENSOR_DATA, and the wire format
(30_encoding.md R56, R59). -/

namespace Sys2Proof.Machine

/-- The wire bytes of one frame byte (30_encoding.md R56). -/
def stuff (b : Byte) : List Byte :=
  if b = Config.marker ∨ b = Config.esc then [Config.esc, b ^^^ Config.stuffMask] else [b]

/-- The wire frame of a frame (30_encoding.md R56): no start marker, length byte or trailer is added. -/
def wireFrame (c : Frame) : List Byte := (frameBytes c).flatMap stuff

/-- The frame bytes a wire stream stands for (30_encoding.md R59); none where it ends inside a pair. The block never destuffs:
this is for whoever checks its output. -/
def destuff : List Byte → Option (List Byte)
  | [] => some []
  | [b] => if b = Config.esc then none else some [b]
  | b :: x :: rest =>
    if b = Config.esc then (destuff rest).map ((x ^^^ Config.stuffMask) :: ·)
    else (destuff (x :: rest)).map (b :: ·)

/-- The frame that `encodeAndSend` transmits: the composite, with the checksum in byte 7 (41_frame_codec.md R75, R77). -/
def sentFrame (type : Byte) (sensorId : SensorId) (value : Value) : Frame :=
  setByte7 (composite type sensorId value) (computeCRC (composite type sensorId value))

/-- `C <- ...` (41_frame_codec.md R75). -/
def buildFrame (type : Byte) (sensorId : SensorId) (value : Value) (s : State) : State :=
  s.setCodec { s.codec with frame := composite type sensorId value }

/-- `F[7] <- computeCRC(F[0..7])` (41_frame_codec.md R77). -/
def storeCrc (s : State) : State :=
  let t := runCrc s.codec.frame s
  t.setCodec { t.codec with frame := setByte7 t.codec.frame t.codec.crcOut }

/-- One frame byte, stuffed where it must be, each wire byte by one `T.write` (41_frame_codec.md R78). -/
def sendByte (b : Byte) (s : State) : State :=
  if b = Config.marker ∨ b = Config.esc then writeByte (b ^^^ Config.stuffMask) (writeByte Config.esc s) else writeByte b s

/-- The frame bytes in order (41_frame_codec.md R78). -/
def sendBytes : List Byte → State → State
  | [], s => s
  | b :: rest, s => sendBytes rest (sendByte b s)

/-- The transient state is not retained after the reply (10_state.md R27; log 12). -/
def releaseCodec (s : State) : State := s.setCodec Codec.reset

/-- `encodeAndSend` (41_frame_codec.md R74), in the order of its pseudocode. -/
def encodeAndSend (type : Byte) (sensorId : SensorId) (value : Value) (s : State) : State :=
  let built := storeCrc (buildFrame type sensorId value s)
  let sending := setDirection .tx built
  let written := sendBytes (frameBytes sending.codec.frame) sending
  releaseCodec (setDirection .rx (flush written))

/-- ENCODE_AND_SEND (41_frame_codec.md R74, R81): "no return value; no error path". -/
def execEncodeAndSend (type : Byte) (sensorId : SensorId) (value : Value) (s : State) :
    Host.Outcome State Fault Refusal :=
  .next (encodeAndSend type sensorId value s)

/-- FRAME_SENSOR_DATA (30_encoding.md R50): the frame buffer holds the type-0x10 frame with these fields (log 20). -/
def execFrameSensorData (sensorId : SensorId) (value : Value) (crc : Byte) (s : State) :
    Host.Outcome State Fault Refusal :=
  .next (s.setCodec { s.codec with frame := frameWord Config.typeSensor sensorId value crc })

end Sys2Proof.Machine
end

