-- ==== Sys2Proof/Machine/Flags.lean ====
section
/-! DEFINITION. The block has no flags beyond `S.init` (10_state.md R32). What stands here is the check of each host transaction:
the status it returns, the `S.init` check before the argument check (60_exceptions.md R113). -/

namespace Sys2Proof.Machine

/-- The numeric code of a status (60_exceptions.md R108). -/
def Status.code : Status → Nat
  | .ok => 0
  | .rejNotInit => 1
  | .rejAlreadyInit => 2
  | .rejBadCount => 3
  | .rejBadSlot => 4

/-- The check of `initialize` (43_poll_fsm.md R91, 60_exceptions.md R110, R111). -/
def checkInitialize (activeSlotCount : Byte) (s : State) : Status :=
  if s.init then .rejAlreadyInit
  else if s.capacity < activeSlotCount.toNat then .rejBadCount
  else .ok

/-- The check of `setSensorData` (42_sensor_table.md R85, 60_exceptions.md R109, R112). -/
def checkSetSensorData (slot : Byte) (s : State) : Status :=
  if !s.init then .rejNotInit
  else if s.capacity ≤ slot.toNat then .rejBadSlot
  else .ok

/-- The check of `poll` (43_poll_fsm.md R93, 60_exceptions.md R109). -/
def checkPoll (s : State) : Status := if s.init then .ok else .rejNotInit

end Sys2Proof.Machine
end

