-- ==== Sys2Proof/Machine/HostTransactions.lean ====
section
/-! DEFINITION. The host transactions: INITIALIZE, SET_SENSOR_DATA, POLL. That the host issues one only when the one before has
returned (10_state.md R11) is the step's rule, not theirs (log 23). -/

namespace Sys2Proof.Machine

/-- INITIALIZE (43_poll_fsm.md R91, R92). -/
def execInitialize (busId activeSlotCount : Byte) (s : State) : Host.Outcome State Fault Refusal :=
  match checkInitialize activeSlotCount s with
  | .ok => .next (returnOk ((((clearTable (s.configure busId activeSlotCount)).setCursor 0).setFsm .idle)))
  | code => .next (reject code s)

/-- SET_SENSOR_DATA (42_sensor_table.md R85). -/
def execSetSensorData (slot : Byte) (id : SensorId) (value : Value) (s : State) : Host.Outcome State Fault Refusal :=
  match checkSetSensorData slot s with
  | .ok => .next (returnOk (writeEntry slot ⟨id, value⟩ s))
  | code => .next (reject code s)

/-- The block is in the hold of 43_poll_fsm.md R102: a `poll` in progress, in `AwaitingId`, with no byte available. -/
def holding (s : State) : Bool := s.polling && (s.fsm == .awaitingId) && !available s

/-- `if not T.available(): return OK`, in `Idle` (43_poll_fsm.md R93). -/
def pollReturn (s : State) : State := returnOk (s.setPolling false)

/-- POLL (43_poll_fsm.md R93): rejected before `initialize`; with nothing to do, in `Idle` and no byte available, it "returns at
once with no event"; else its loop is entered. Each pass of the loop is then a step of its own, an RX row on one input byte
(R97, R98), and so is its return (log 3). -/
def execPoll (s : State) : Host.Outcome State Fault Refusal :=
  match checkPoll s with
  | .ok => if s.fsm = .idle ∧ available s = false then .next (pollReturn s) else .next (s.setPolling true)
  | code => .next (reject code s)

end Sys2Proof.Machine
end

