-- ==== Sys2Proof/Machine/Rx.lean ====
section
/-! DEFINITION. The Poll State Machine's transitions (43_poll_fsm.md R97 to R101), one per class of input byte: RX_MARKER,
RX_DISCARD, RX_ID_REPLY, RX_ID_NOSLOT, RX_ID_MISMATCH. The byte has just been read (`T.read`, by the step). Off the condition of
its class a row has no effect to model (log 16). -/

namespace Sys2Proof.Machine

/-- RX_MARKER (43_poll_fsm.md R97). -/
def execRxMarker (s : State) : Host.Outcome State Fault Refusal :=
  if s.fsm = .idle then .next (s.setFsm .awaitingId) else .refused (.conditionNotMet "RX_MARKER")

/-- RX_DISCARD (43_poll_fsm.md R97): "remain `Idle` (discard byte)". -/
def execRxDiscard (b : Byte) (s : State) : Host.Outcome State Fault Refusal :=
  if s.fsm = .idle ∧ b ≠ Config.marker then .next s else .refused (.conditionNotMet "RX_DISCARD")

/-- `reply()` with the entry `e` read at the cursor, up to the advance of the cursor (43_poll_fsm.md R99, R100). -/
def reply (e : SensorEntry) (s : State) : State :=
  (encodeAndSend Config.typeSensor e.id e.value s).setCursor (nextCursor s.cursor s.activeSlotCount)

/-- RX_ID_REPLY (43_poll_fsm.md R98, R99, R100). -/
def execRxIdReply (b : Byte) (s : State) : Host.Outcome State Fault Refusal :=
  if s.fsm = .awaitingId ∧ b = s.busId ∧ s.activeSlotCount ≠ 0 then
    match readEntry s.cursor s with
    | some e => .next ((reply e s).setFsm .idle)
    | none => .fault (.noSuchSlot s.cursor)
  else .refused (.conditionNotMet "RX_ID_REPLY")

/-- RX_ID_NOSLOT (43_poll_fsm.md R98, R101): "silently ignored". -/
def execRxIdNoslot (b : Byte) (s : State) : Host.Outcome State Fault Refusal :=
  if s.fsm = .awaitingId ∧ b = s.busId ∧ s.activeSlotCount = 0 then .next (s.setFsm .idle)
  else .refused (.conditionNotMet "RX_ID_NOSLOT")

/-- RX_ID_MISMATCH (43_poll_fsm.md R98, R105). -/
def execRxIdMismatch (b : Byte) (s : State) : Host.Outcome State Fault Refusal :=
  if s.fsm = .awaitingId ∧ b ≠ s.busId then .next (s.setFsm .idle)
  else .refused (.conditionNotMet "RX_ID_MISMATCH")

end Sys2Proof.Machine
end

