-- ==== Sys2Proof/Machine/Tx.lean ====
section
/-! DEFINITION. The output byte encodings (30_encoding.md R56, 41_frame_codec.md R78): TX_LITERAL, TX_ESC_7E, TX_ESC_7D. Each row
writes its `output` column of the opcode table (log 21). -/

namespace Sys2Proof.Machine

/-- TX_LITERAL: a frame byte other than 0x7E and 0x7D is sent as itself; "no other byte is ever altered" (R64). Off its condition
the row has no effect to model (log 16). -/
def execTxLiteral (b : Byte) (s : State) : Host.Outcome State Fault Refusal :=
  if b = Config.marker ∨ b = Config.esc then .refused (.conditionNotMet "TX_LITERAL")
  else .next (writeByte b s)

/-- TX_ESC_7E: 0x7E is sent as 0x7D 0x5E. -/
def execTxEsc7e (s : State) : Host.Outcome State Fault Refusal :=
  .next (writeBytes [0x7D, 0x5E] s)

/-- TX_ESC_7D: 0x7D is sent as 0x7D 0x5D. -/
def execTxEsc7d (s : State) : Host.Outcome State Fault Refusal :=
  .next (writeBytes [0x7D, 0x5D] s)

end Sys2Proof.Machine
end

