-- ==== Sys2Proof/Machine/Dispatch.lean ====
section
/-! DEFINITION. One arm per constructor of `Instr`. -/

namespace Sys2Proof.Machine

def exec (i : Instr) (s : State) : Host.Outcome State Fault Refusal :=
  match i with
  | .initializeDevice busId n => Sys2Proof.Machine.execInitialize busId n s
  | .setSensorData slot id value => Sys2Proof.Machine.execSetSensorData slot id value s
  | .poll => Sys2Proof.Machine.execPoll s
  | .computeCrc c => Sys2Proof.Machine.execComputeCrc c s
  | .encodeAndSend type id value => Sys2Proof.Machine.execEncodeAndSend type id value s
  | .rxMarker => Sys2Proof.Machine.execRxMarker s
  | .rxDiscard b => Sys2Proof.Machine.execRxDiscard b s
  | .rxIdReply b => Sys2Proof.Machine.execRxIdReply b s
  | .rxIdNoslot b => Sys2Proof.Machine.execRxIdNoslot b s
  | .rxIdMismatch b => Sys2Proof.Machine.execRxIdMismatch b s
  | .txLiteral b => Sys2Proof.Machine.execTxLiteral b s
  | .txEsc7e => Sys2Proof.Machine.execTxEsc7e s
  | .txEsc7d => Sys2Proof.Machine.execTxEsc7d s
  | .frameSensorData id value crc => Sys2Proof.Machine.execFrameSensorData id value crc s

end Sys2Proof.Machine
end

