-- ==== Sys2Proof/Machine/Fetch.lean ====
section
/-! DEFINITION. What the next step is: which agent moves, and, where it is the block, which instruction runs in which state
(10_state.md section 1, R11; 43_poll_fsm.md R93, R102; log 2, 4). -/

namespace Sys2Proof.Machine

/-- One step, before it is taken. -/
inductive Move where
  /-- The block executes an instruction, in the state past the instruction's own words. -/
  | run (i : Instr) (s : State)
  /-- A move with no instruction: of the transport, a reset, the return of a `poll`, or a wait. -/
  | quiet (s : State)
  /-- What stands at the unit port is no instruction. -/
  | undecodable (r : Refusal)
  deriving DecidableEq, Repr

/-- The block waits: for a host transaction (70_reset_and_hazards.md R129), or in the hold (43_poll_fsm.md R102). -/
def waiting (s : State) : Bool := !s.polling || holding s

/-- The instruction that the oldest input byte is, and the state once `T.read` has taken the byte (43_poll_fsm.md R93). -/
def fetchInput (s : State) : Option (Instr × State) :=
  match decodeRx s.rxContext s.transport.input, readByte s with
  | .ok (i, _), some (_, t) => some (i, t)
  | _, _ => none

/-- The block's own move. With a `poll` in progress: an input byte, if one is available; else the return, in `Idle`, or the hold,
in `AwaitingId` (43_poll_fsm.md R93, R102). With none it waits. A wait leaves the state as it is (log 11). -/
def blockMove (s : State) : Move :=
  if s.polling then
    match fetchInput s with
    | some (i, t) => .run i t
    | none => if s.fsm = .idle then .quiet (pollReturn s) else .quiet s
  else .quiet s

/-- An abandoned wait: `S.fsm <- Idle` without reading, only if `ID_WAIT_ABANDON` is true (43_poll_fsm.md R102). -/
def abandonWait (s : State) : State := if s.params.idWaitAbandon then s.setFsm .idle else s

/-- The next move, taken from the unit port, then from `env` (log 4, 14). Only the first move of `env` is looked at: while it is not
due the block moves, and no later move overtakes it. DESIGN CHOICE (log 27, unsafe): so a host call that stands between a holding
`poll` and the next `rx` line keeps that line's bytes from arriving, and the hold does not end; R65 does not say. -/
def nextMove (s : State) : Move :=
  match s.unit with
  | some u =>
    match decodeUnit u with
    | .ok i => .run i (s.setUnit none)
    | .error e => .undecodable (.undecodable e)
  | none =>
    match s.env with
    | [] => blockMove s
    | .call c :: rest => if s.polling then blockMove s else .run (decodeHost c) (s.setEnv rest)
    | .rx bytes :: rest => if waiting s then .quiet (deliver bytes (s.setEnv rest)) else blockMove s
    | .rxNow bytes :: rest => .quiet (deliver bytes (s.setEnv rest))
    | .wait :: rest => blockMove (s.setEnv rest)
    | .echo n :: rest => .quiet (deliverEcho n (s.setEnv rest))
    | .abandon :: rest =>
      if holding s then .quiet (abandonWait (s.setEnv rest))
      else if s.polling then blockMove s
      else .quiet (s.setEnv rest)
    | .reset :: rest => .quiet (resetBlock (s.setEnv rest))

/-- `s` with an encoded instruction placed where `nextMove` takes the next one (log 5): a unit request at the unit port, a host
call as the next move, an input byte as the oldest of a `poll` in progress whose next move is the block's. -/
def placeNext (e : Encoded) (s : State) : State :=
  match e with
  | .unit u => s.setUnit (some u)
  | .host c => ((s.setUnit none).setPolling false).setEnv (.call c :: s.env)
  | .rx ctx bytes =>
    ((((s.setUnit none).setPolling true).setFsm ctx.fsm).setEnv (.wait :: s.env)).setTransport
      { s.transport with input := bytes ++ s.transport.input }

end Sys2Proof.Machine
end

