-- ==== Sys2Proof/Machine/Step.lean ====
section
/-! DEFINITION. One step of the machine: one move of one agent (log 2). -/

namespace Sys2Proof.Machine

/-- One step. -/
def step (s : State) : Host.Outcome State Fault Refusal :=
  match nextMove s with
  | .run i t => exec i t
  | .quiet t => .next t
  | .undecodable r => .refused r

/-- `s` with a word of the opcode table placed so that the next step runs it (log 5, 15). -/
def State.withFetchWord (s : State) (nbits w : Nat) : State :=
  match tableWord nbits w with
  | some e => placeNext e s
  | none => s

end Sys2Proof.Machine
end

