-- ==== Sys2Proof/Safety.lean ====
section
/-! DEFINITION. What counts as a safe state and a safe run, and the spec's behaviour of `poll` written once more, by the closed
forms of the spec and without the machine's operations, for claims to compare the machine with. -/

namespace Sys2Proof.Safety

open Sys2Proof.Machine

/-! ### Safe states and runs -/

/-- The invariants of 10_state.md section 10 and what the spec says holds between two steps. -/
structure Inv (s : State) : Prop where
  /-- `1 ≤ CAPACITY ≤ 255` (00_scope.md section 4). -/
  capacity : s.table.wf = true
  /-- `S.activeSlotCount ≤ CAPACITY` (R29). -/
  count_le : s.activeSlotCount.toNat ≤ s.table.length
  /-- `0 <= cursor < activeSlotCount` whenever `activeSlotCount > 0` (R30). -/
  cursor_lt : 0 < s.activeSlotCount.toNat → s.cursor.toNat < s.activeSlotCount.toNat
  /-- When `activeSlotCount = 0` the cursor is `0` (R30). -/
  cursor_zero : s.activeSlotCount.toNat = 0 → s.cursor = 0
  /-- Between host transactions `S.fsm = Idle` (R31). -/
  idle_between : s.polling = false → s.fsm = .idle
  /-- Between steps `S.dir = Rx` (R31, R25). -/
  dir_rx : s.dir = .rx
  /-- A `poll` is in progress only after `initialize` (R109). -/
  polling_init : s.polling = true → s.init = true
  /-- Before `initialize` the configuration and the table have their reset values (R15, R16, R19). -/
  uninit : s.init = false →
    s.busId = 0 ∧ s.activeSlotCount = 0 ∧ s.table = List.replicate s.table.length SensorEntry.zero
  /-- Nothing of a reply is retained (R12, R27). -/
  codec_clear : s.codec = Codec.reset
  /-- Every byte written has been transmitted (R46). -/
  output_empty : s.transport.output = []
  /-- No request at the boundary of an internal unit (R60; log 14). -/
  unit_none : s.unit = none

/-- No host transaction was rejected: the premise of a claim about a run (60_exceptions.md R108; log 1). -/
def noRejection (s : State) : Bool := s.statuses.all (· == .ok)

/-- Where a trace of transport events leaves the half-duplex line. -/
inductive LinePhase where
  /-- In receive. -/
  | receive
  /-- In transmit, a reply's bytes being written. -/
  | transmit
  /-- In transmit, flushed. -/
  | drained
  deriving DecidableEq, Repr

/-- One event on the line: reads only in receive, writes only in transmit, and the line back to receive only after a flush
(20_memory.md R46, 41_frame_codec.md R79, R80, 70_reset_and_hazards.md R133); none for any other order. -/
def linePhaseStep : Option LinePhase → Event → Option LinePhase
  | some .receive, .rd _ => some .receive
  | some .receive, .dir .tx => some .transmit
  | some .transmit, .wr _ => some .transmit
  | some .transmit, .fl => some .drained
  | some .drained, .dir .rx => some .receive
  | _, _ => none

/-- The line after a trace, from receive. -/
def linePhase (trace : List Event) : Option LinePhase := trace.foldl linePhaseStep (some .receive)

/-- The bytes of the `Wr` events of a trace, in order. -/
def writtenBytes : List Event → List Byte
  | [] => []
  | .wr b :: rest => b :: writtenBytes rest
  | .rd _ :: rest => writtenBytes rest
  | .fl :: rest => writtenBytes rest
  | .dir _ :: rest => writtenBytes rest

/-- The bytes of the `Rd` events of a trace, in order. -/
def readBytes : List Event → List Byte
  | [] => []
  | .rd b :: rest => b :: readBytes rest
  | .wr _ :: rest => readBytes rest
  | .fl :: rest => readBytes rest
  | .dir _ :: rest => readBytes rest

/-- How many replies a trace holds: each has one `Fl` (41_frame_codec.md R80). -/
def replyCount (trace : List Event) : Nat := trace.count .fl

/-! ### How a schedule divides the input -/

/-- A move that polls, brings bytes or lets the block move: the moves between which an input stream may be divided, with the
table's contents fixed (43_poll_fsm.md R96). -/
def pollsOrArrives : EnvMove → Bool
  | .call .poll => true
  | .call (.initializeDevice _ _) => false
  | .call (.setSensorData _ _ _) => false
  | .rx _ => true
  | .rxNow _ => true
  | .wait => true
  | .echo _ => false
  | .abandon => false
  | .reset => false

/-- The bytes that one move brings from the bus. -/
def bytesOfMove : EnvMove → List Byte
  | .rx bytes => bytes
  | .rxNow bytes => bytes
  | .call _ => []
  | .wait => []
  | .echo _ => []
  | .abandon => []
  | .reset => []

/-- The bytes that a schedule brings from the bus, in order, however it divides them. -/
def arrivingBytes (env : List EnvMove) : List Byte := env.flatMap bytesOfMove

/-- With a `poll` in progress that does not hold, the turn is the block's: no move is first in the schedule, or a `wait`, which is
used up, or one that is not due before the `poll` has returned or holds, a host call (10_state.md R11), an `rx` line (30_encoding.md
R65) or an abandon (43_poll_fsm.md R102), which stays first. The second list is the schedule after the block's move. -/
def BlockTurn (before after : List EnvMove) : Prop :=
  before = [] ∧ after = [] ∨
  before = .wait :: after ∨
  (∃ c rest, before = .call c :: rest ∧ after = before) ∨
  (∃ bytes rest, before = .rx bytes :: rest ∧ after = before) ∨
  ∃ rest, before = .abandon :: rest ∧ after = before

/-- A move after which a slot may hold another entry than before: a write of that slot, or a reset. -/
def overwrites (slot : Byte) : EnvMove → Bool
  | .call (.setSensorData other _ _) => other == slot
  | .call (.initializeDevice _ _) => false
  | .call .poll => false
  | .rx _ => false
  | .rxNow _ => false
  | .wait => false
  | .echo _ => false
  | .abandon => false
  | .reset => true

/-! ### The spec's `poll`, by its closed forms -/

/-- The checksum of a list of bytes by the closed form of 40_crc.md R71. -/
def closedCrc (bytes : List Byte) : Byte :=
  let sum := (bytes.map BitVec.toNat).sum
  BitVec.ofNat 8 (255 - if sum = 0 then 0 else (sum - 1) % 255 + 1)

/-- The eight frame bytes of 30_encoding.md R50, little-endian (20_memory.md R36), the checksum last. -/
def specFrame (type : Byte) (sensorId : SensorId) (value : Value) : List Byte :=
  let head := [type, sensorId.extractLsb' 0 8, sensorId.extractLsb' 8 8, value.extractLsb' 0 8, value.extractLsb' 8 8,
    value.extractLsb' 16 8, value.extractLsb' 24 8]
  head ++ [closedCrc head]

/-- The table of 30_encoding.md R56. -/
def specStuff (b : Byte) : List Byte :=
  if b = 0x7E then [0x7D, 0x5E] else if b = 0x7D then [0x7D, 0x5D] else [b]

/-- The events of one `encodeAndSend` (41_frame_codec.md R80). -/
def specSendEvents (type : Byte) (sensorId : SensorId) (value : Value) : List Event :=
  .dir .tx :: (((specFrame type sensorId value).flatMap specStuff).map Event.wr ++ [.fl, .dir .rx])

/-- The events of a reply with the entry `e`, of type 0x10 (43_poll_fsm.md R99). -/
def specReplyEvents (e : SensorEntry) : List Event := specSendEvents 0x10 e.id e.value

/-- What a `poll` changes of the block, and the events it causes. -/
structure PollView where
  fsm : Fsm
  cursor : Nat
  events : List Event
  deriving DecidableEq, Repr

/-- One input byte (43_poll_fsm.md R97, R98, R99, R100), for a configuration and a table. -/
def specPollByte (busId : Byte) (count : Nat) (table : Table) (v : PollView) (b : Byte) : PollView :=
  match v.fsm with
  | .idle => { v with fsm := if b = 0x7E then .awaitingId else .idle, events := v.events ++ [.rd b] }
  | .awaitingId =>
    if b = busId ∧ 0 < count then
      { fsm := .idle
        cursor := (v.cursor + 1) % count
        events := v.events ++ .rd b :: specReplyEvents (table.getD v.cursor SensorEntry.zero) }
    else { v with fsm := .idle, events := v.events ++ [.rd b] }

/-- The input bytes of a `poll`, in order. -/
def specPoll (busId : Byte) (count : Nat) (table : Table) (v : PollView) (bytes : List Byte) : PollView :=
  bytes.foldl (specPollByte busId count table) v

/-- The spec's `poll` over the bytes that are available to `s`. -/
def specPollOf (s : State) : PollView :=
  specPoll s.busId s.activeSlotCount.toNat s.table ⟨s.fsm, s.cursor.toNat, []⟩ s.transport.input

end Sys2Proof.Safety
end

