-- ==== Sys2Proof/Certificates/Slice0/Obligations.lean ====
section
/-! DEFINITION. The statements for the provers, from the numbered rules of spec/. An exec statement whose conclusion is an equality
to `.next { s with … }` is a result, a completion and a frame at once: every field not named there is unchanged. A statement about
a free value holds for every value of it: `Config.lineCarries` has no body, and no statement says what `transport.line` holds
after a transmission. -/

open Sys2Proof Sys2Proof.Machine Sys2Proof.Safety

/-! ### Reset and the host transactions -/

/-- R129: the values of reset, for every capacity and every parameter; a reset move puts the block there and changes nothing else,
the transport, the records and the parameters among it; after it every transaction but `initialize` is rejected. That the move is
one of a schedule is log 4, that a `poll` in progress ends without a status log 19, the cleared transient state log 12, and that
a rejection is a next state log 1. -/
def Obligations.ResetPutsEveryFieldAtItsValue : Prop :=
  (∀ (capacity : Nat) (params : Config.Params),
    (State.resetFor capacity params).init = false ∧ (State.resetFor capacity params).busId = 0x00 ∧
    (State.resetFor capacity params).activeSlotCount = 0 ∧
    (State.resetFor capacity params).table = List.replicate capacity ⟨0x0000, 0x00000000⟩ ∧
    (State.resetFor capacity params).cursor = 0 ∧ (State.resetFor capacity params).fsm = .idle ∧
    (State.resetFor capacity params).dir = .rx) ∧
  (∀ (s : State) (rest : List EnvMove), s.unit = none → s.env = .reset :: rest →
    step s = .next { s with
      env := rest
      init := false
      busId := 0x00
      activeSlotCount := 0
      table := List.replicate s.table.length ⟨0x0000, 0x00000000⟩
      cursor := 0
      fsm := .idle
      dir := .rx
      codec := Codec.reset
      polling := false }) ∧
  (∀ (s : State) (slot : Byte) (id : SensorId) (value : Value), s.init = false →
    exec .poll s = .next { s with statuses := s.statuses ++ [.rejNotInit] } ∧
    exec (.setSensorData slot id value) s = .next { s with statuses := s.statuses ++ [.rejNotInit] })

/-- R91, R110, R111: `initialize` accepted, and its two rejections, each a next state (log 1). -/
def Obligations.InitializeConfiguresOrRejects : Prop :=
  ∀ (busId n : Byte) (s : State),
    (s.init = false → n.toNat ≤ s.table.length →
      exec (.initializeDevice busId n) s = .next { s with
        init := true
        busId := busId
        activeSlotCount := n
        table := List.replicate s.table.length ⟨0x0000, 0x00000000⟩
        cursor := 0
        fsm := .idle
        statuses := s.statuses ++ [.ok] }) ∧
    (s.init = true →
      exec (.initializeDevice busId n) s = .next { s with statuses := s.statuses ++ [.rejAlreadyInit] }) ∧
    (s.init = false → s.table.length < n.toNat →
      exec (.initializeDevice busId n) s = .next { s with statuses := s.statuses ++ [.rejBadCount] })

/-- R85, R112: `setSensorData` accepted, and its rejections, each a next state (log 1). -/
def Obligations.SetSensorDataWritesOneEntryOrRejects : Prop :=
  ∀ (slot : Byte) (id : SensorId) (value : Value) (s : State),
    (s.init = true → slot.toNat < s.table.length →
      exec (.setSensorData slot id value) s = .next { s with
        table := s.table.set slot.toNat ⟨id, value⟩
        statuses := s.statuses ++ [.ok] }) ∧
    (s.init = false →
      exec (.setSensorData slot id value) s = .next { s with statuses := s.statuses ++ [.rejNotInit] }) ∧
    (s.init = true → s.table.length ≤ slot.toNat →
      exec (.setSensorData slot id value) s = .next { s with statuses := s.statuses ++ [.rejBadSlot] })

/-- R85, R20: after an accepted `setSensorData` the slot reads as the entry given, and every other slot as before. -/
def Obligations.SetSensorDataChangesOneSlotOnly : Prop :=
  ∀ (slot : Byte) (id : SensorId) (value : Value) (s : State), s.init = true → slot.toNat < s.table.length →
    ∃ t, exec (.setSensorData slot id value) s = .next t ∧ t.table.length = s.table.length ∧
      readEntry slot t = some ⟨id, value⟩ ∧ ∀ other : Byte, other ≠ slot → readEntry other t = readEntry other s

/-- R93: the check of `poll`, its return at once, and its loop, one pass a step: an input byte is read and is the class that its
state and value give it; with none available the call returns in `Idle`, whatever move that leaves the turn to the block is first in
the schedule, and holds in `AwaitingId`. The passes as steps are log 2 and 3, the rejection as a next state log 1, the hold as a
step that changes nothing log 11, the moves log 4 and 7, and a host call that keeps the moves behind it back log 27. -/
def Obligations.PollFollowsItsLoop : Prop :=
  (∀ s : State,
    (s.init = false → exec .poll s = .next { s with statuses := s.statuses ++ [.rejNotInit] }) ∧
    (s.init = true → s.fsm = .idle → s.transport.input = [] →
      exec .poll s = .next { s with polling := false, statuses := s.statuses ++ [.ok] }) ∧
    (s.init = true → (s.fsm = .awaitingId ∨ s.transport.input ≠ []) → exec .poll s = .next { s with polling := true })) ∧
  (∀ (s : State) (env : List EnvMove), s.unit = none → s.polling = true → BlockTurn s.env env →
    (s.fsm = .idle → s.transport.input = [] →
      step s = .next { s with env := env, polling := false, statuses := s.statuses ++ [.ok] }) ∧
    (∀ (b : Byte) (rest : List Byte), s.transport.input = b :: rest →
      step s = exec (decodeRxByte ⟨s.fsm, s.busId, s.activeSlotCount⟩ b) { s with
        env := env
        transport := { s.transport with input := rest }
        trace := s.trace ++ [.rd b] })) ∧
  (∀ s : State, s.unit = none → s.polling = true → s.fsm = .awaitingId → s.transport.input = [] →
    (s.env = [] ∨ ∃ c rest, s.env = .call c :: rest) → step s = .next s)

/-- R109, and from R91, R108, R129, R34: before `initialize`, `poll` and `setSensorData` are rejected, in a next state (log 1); and
from a state that meets the invariants a step before `initialize` causes no transport event, keeps cursor, state, direction and
table, and sets `S.init` and the configuration only as `initialize`. -/
def Obligations.NothingRunsBeforeInitialize : Prop :=
  (∀ (s : State) (c : HostCall), s.init = false → (c = .poll ∨ ∃ slot id value, c = .setSensorData slot id value) →
    exec (decodeHost c) s = .next { s with statuses := s.statuses ++ [.rejNotInit] }) ∧
  (∀ s t : State, Inv s → s.init = false → step s = .next t →
    t.trace = s.trace ∧ t.cursor = s.cursor ∧ t.fsm = s.fsm ∧ t.dir = s.dir ∧ t.table = s.table ∧
    (t.init = false ∧ t.busId = s.busId ∧ t.activeSlotCount = s.activeSlotCount ∨
      ∃ busId n rest, s.env = .call (.initializeDevice busId n) :: rest ∧ t.init = true ∧ t.busId = busId ∧
        t.activeSlotCount = n))

/-- R113: of several causes the `S.init` check is reported; the rejection is a next state (log 1). -/
def Obligations.InitCheckIsReportedFirst : Prop :=
  (∀ (busId n : Byte) (s : State), s.init = true → s.table.length < n.toNat →
    exec (.initializeDevice busId n) s = .next { s with statuses := s.statuses ++ [.rejAlreadyInit] }) ∧
  (∀ (slot : Byte) (id : SensorId) (value : Value) (s : State), s.init = false → s.table.length ≤ slot.toNat →
    exec (.setSensorData slot id value) s = .next { s with statuses := s.statuses ++ [.rejNotInit] })

/-- R108: every host transaction answers: it has entered the loop of `poll`, or it has returned a status, and then, unless that
is `OK`, nothing else has changed. -/
def Obligations.RejectionChangesNothing : Prop :=
  ∀ (c : HostCall) (s : State), ∃ t, exec (decodeHost c) s = .next t ∧
    ((c = .poll ∧ t = { s with polling := true }) ∨
      ∃ code, t.statuses = s.statuses ++ [code] ∧ t.trace = s.trace ∧
        (code ≠ .ok → t = { s with statuses := s.statuses ++ [code] }))

/-- R95, R94: a `poll` in progress ends only by its return, in `Idle` and with no byte available, or by reset. -/
def Obligations.PollReturnsOnlyIdleAndDrained : Prop :=
  ∀ s t : State, step s = .next t → s.polling = true → t.polling = false → s.env.head? ≠ some .reset →
    s.fsm = .idle ∧ t.fsm = .idle ∧ s.transport.input = [] ∧ t.transport.input = [] ∧
      t.statuses = s.statuses ++ [.ok] ∧ t.trace = s.trace

/-! ### The CRC Engine -/

/-- COMPUTE_CRC runs on every frame, and writes nothing but the transient accumulator and the result handed back, both by the
closed form of R71 (the field of the result is the model's own, log 13). -/
def Obligations.ComputeCrcWritesOnlyItsResult : Prop :=
  ∀ (c : Frame) (s : State), ∃ acc : BitVec 16,
    acc.toNat = (if ((frameBytes c).map BitVec.toNat).sum = 0 then 0
      else (((frameBytes c).map BitVec.toNat).sum - 1) % 255 + 1) ∧
    exec (.computeCrc c) s = .next { s with codec := { s.codec with acc := acc, crcOut := closedCrc (frameBytes c) } }

/-- R71: the closed form of the checksum, when it is 0xFF, when it is 0x00, and that it depends only on the sum. -/
def Obligations.CrcHasItsClosedForm : Prop :=
  (∀ c : Frame, ((frameBytes c).map BitVec.toNat).sum ≤ 2040) ∧
  (∀ c : Frame, (crcAccumulate (frameBytes c)).toNat =
    if ((frameBytes c).map BitVec.toNat).sum = 0 then 0 else (((frameBytes c).map BitVec.toNat).sum - 1) % 255 + 1) ∧
  (∀ c : Frame, computeCRC c = closedCrc (frameBytes c)) ∧
  (∀ c : Frame, computeCRC c = 0xFF ↔ ∀ b ∈ frameBytes c, b = 0x00) ∧
  (∀ c : Frame, computeCRC c = 0x00 ↔
    0 < ((frameBytes c).map BitVec.toNat).sum ∧ 255 ∣ ((frameBytes c).map BitVec.toNat).sum) ∧
  (∀ c d : Frame, (frameBytes c).Perm (frameBytes d) → computeCRC c = computeCRC d)

/-- R69: the accumulator never exceeds 511 and never wraps, at any point of the loop over any bytes. -/
def Obligations.CrcAccumulatorNeverWraps : Prop :=
  ∀ (bytes : List Byte) (b : Byte),
    (crcAccumulate bytes).toNat ≤ 255 ∧
    (crcAccumulate bytes + b.zeroExtend 16).toNat = (crcAccumulate bytes).toNat + b.toNat ∧
    (crcAccumulate bytes + b.zeroExtend 16).toNat ≤ 510 ∧
    ∀ added : BitVec 16, added = crcAccumulate bytes + b.zeroExtend 16 →
      (added + (added >>> 8)).toNat = added.toNat + added.toNat / 256 ∧ (added + (added >>> 8)).toNat ≤ 511

/-- R70: one iteration adds the byte and takes 255 off a sum of 256 or more; its second fold changes nothing. -/
def Obligations.CrcSecondFoldIsIdle : Prop :=
  ∀ (acc : BitVec 16) (b : Byte), acc.toNat ≤ 255 →
    (crcStep acc b).toNat = (if 256 ≤ acc.toNat + b.toNat then acc.toNat + b.toNat - 255 else acc.toNat + b.toNat) ∧
    ∀ folded : BitVec 16, folded = ((acc + b.zeroExtend 16) + ((acc + b.zeroExtend 16) >>> 8)) &&& 0x00FF →
      folded.toNat ≤ 255 ∧ folded >>> 8 = 0 ∧ crcStep acc b = folded

/-- R72: with byte 7 zero, the checksum over eight bytes is the one over the first seven. -/
def Obligations.CrcOfSevenBytes : Prop :=
  ∀ c : Frame, frameByte c 7 = 0x00 →
    crcAccumulate (frameBytes c) = crcAccumulate ((frameBytes c).take 7) ∧
    computeCRC c = closedCrc ((frameBytes c).take 7)

/-! ### Frames and the wire -/

/-- R50, R51: the bytes of a frame word, and its fields recovered from them. -/
def Obligations.FrameFieldsRoundTrip : Prop :=
  (∀ (type : Byte) (id : SensorId) (value : Value) (crc : Byte),
    frameBytes (frameWord type id value crc) =
      [type, id.extractLsb' 0 8, id.extractLsb' 8 8, value.extractLsb' 0 8, value.extractLsb' 8 8, value.extractLsb' 16 8,
        value.extractLsb' 24 8, crc] ∧
    fieldsOfBytes (frameByte (frameWord type id value crc) 0) (frameByte (frameWord type id value crc) 1)
      (frameByte (frameWord type id value crc) 2) (frameByte (frameWord type id value crc) 3)
      (frameByte (frameWord type id value crc) 4) (frameByte (frameWord type id value crc) 5)
      (frameByte (frameWord type id value crc) 6) (frameByte (frameWord type id value crc) 7) =
      ⟨type, id, value, crc⟩) ∧
  (∀ c d : Frame, frameBytes c = frameBytes d → c = d)

/-- FRAME_SENSOR_DATA: the frame buffer holds the type-0x10 frame, byte by byte as R50 lays it out; nothing else changes. That
executing a FRAME row fills the buffer is the model's reading (log 20). -/
def Obligations.FrameSensorDataFillsTheBuffer : Prop :=
  ∀ (id : SensorId) (value : Value) (crc : Byte) (s : State), ∃ c : Frame,
    exec (.frameSensorData id value crc) s = .next { s with codec := { s.codec with frame := c } } ∧
    frameBytes c = [0x10, id.extractLsb' 0 8, id.extractLsb' 8 8, value.extractLsb' 0 8, value.extractLsb' 8 8,
      value.extractLsb' 16 8, value.extractLsb' 24 8, crc]

/-- R75: the composite is the frame with byte 7 zero, for every operand. -/
def Obligations.CompositePacksTheOperands : Prop :=
  ∀ (type : Byte) (id : SensorId) (value : Value),
    composite type id value = type.zeroExtend 64 ||| (id.zeroExtend 64 <<< 8) ||| (value.zeroExtend 64 <<< 24) ∧
    composite type id value = frameWord type id value 0x00 ∧
    frameByte (composite type id value) 0 = type ∧
    frameByte (composite type id value) 1 ++ frameByte (composite type id value) 0 = id.extractLsb' 0 8 ++ type ∧
    frameByte (composite type id value) 2 ++ frameByte (composite type id value) 1 = id ∧
    frameByte (composite type id value) 6 ++ frameByte (composite type id value) 5 ++ frameByte (composite type id value) 4 ++
      frameByte (composite type id value) 3 = value ∧
    frameByte (composite type id value) 7 = 0x00

/-- R37: the write of byte 7 through the byte view changes no other byte. -/
def Obligations.ByteSevenWriteKeepsTheRest : Prop :=
  ∀ (c : Frame) (b : Byte),
    frameBytes (setByte7 c b) = (frameBytes c).take 7 ++ [b] ∧
    (setByte7 c b).extractLsb' 0 56 = c.extractLsb' 0 56 ∧ (setByte7 c b).extractLsb' 56 8 = b

/-- R52, R77, R36: the frame transmitted is the fields little-endian, then the checksum of the frame while byte 7 is zero, which
is the closed form over the first seven bytes. -/
def Obligations.SentFrameCarriesItsChecksum : Prop :=
  ∀ (type : Byte) (id : SensorId) (value : Value),
    frameByte (composite type id value) 7 = 0x00 ∧
    (frameBytes (sentFrame type id value)).take 7 = (frameBytes (composite type id value)).take 7 ∧
    frameByte (sentFrame type id value) 7 = computeCRC (composite type id value) ∧
    frameBytes (sentFrame type id value) = specFrame type id value

/-- R76: a realisation that sign-extends the value transmits the same frame. -/
def Obligations.SignExtensionIsInvisible : Prop :=
  ∀ (type : Byte) (id : SensorId) (value : Value) (c : Frame),
    c = type.zeroExtend 64 ||| (id.zeroExtend 64 <<< 8) ||| (value.signExtend 64 <<< 24) →
    (value.msb = true → frameByte c 7 = 0xFF) ∧ computeCRC c = computeCRC (composite type id value) ∧
      setByte7 c (computeCRC c) = sentFrame type id value

/-- R56: the wire frame is the bytes in order, each by the table of R56. -/
def Obligations.WireFrameStuffsEachByte : Prop :=
  ∀ c : Frame, wireFrame c = (frameBytes c).flatMap fun b =>
    if b = 0x7E then [0x7D, 0x5E] else if b = 0x7D then [0x7D, 0x5D] else [b]

/-- R58: no 0x7E in a wire frame, and each 0x7D begins a pair whose second byte is 0x5E or 0x5D. -/
def Obligations.WireFrameHasNoMarker : Prop :=
  ∀ c : Frame, (0x7E : Byte) ∉ wireFrame c ∧
    ∀ i : Nat, (wireFrame c)[i]? = some (0x7D : Byte) →
      (wireFrame c)[i + 1]? = some (0x5E : Byte) ∨ (wireFrame c)[i + 1]? = some (0x5D : Byte)

/-- R57: the length of a wire frame. -/
def Obligations.WireFrameLengthBounds : Prop :=
  ∀ (type : Byte) (id : SensorId) (value : Value),
    8 ≤ (wireFrame (sentFrame type id value)).length ∧ (wireFrame (sentFrame type id value)).length ≤ 15 ∧
    (type = 0x10 → (wireFrame (sentFrame type id value)).length ≤ 14) ∧
    ((∀ b ∈ (frameBytes (sentFrame type id value)).take 7, b = 0x7E ∨ b = 0x7D) →
      frameByte (sentFrame type id value) 7 ≠ 0x7E ∧ frameByte (sentFrame type id value) 7 ≠ 0x7D)

/-- R59: a wire frame determines its frame: destuffing recovers the eight bytes; and its length is known from its bytes: of two
streams that begin with a wire frame, equal streams begin with the same frame and go on alike. -/
def Obligations.WireFrameDeterminesItsFrame : Prop :=
  (∀ c : Frame, destuff (wireFrame c) = some (frameBytes c)) ∧
  (∀ (c d : Frame) (xs ys : List Byte), wireFrame c ++ xs = wireFrame d ++ ys → c = d ∧ xs = ys)

/-- R83: the operands, the frame and its checksum are recovered from what `encodeAndSend` transmits. -/
def Obligations.TransmissionDecodesBack : Prop :=
  ∀ (type : Byte) (id : SensorId) (value : Value), ∃ f0 f1 f2 f3 f4 f5 f6 f7 : Byte,
    destuff (wireFrame (sentFrame type id value)) = some [f0, f1, f2, f3, f4, f5, f6, f7] ∧
    fieldsOfBytes f0 f1 f2 f3 f4 f5 f6 f7 = ⟨type, id, value, computeCRC (setByte7 (sentFrame type id value) 0x00)⟩ ∧
    frameBytes (sentFrame type id value) = [f0, f1, f2, f3, f4, f5, f6, f7]

/-- R79, R80: `encodeAndSend` runs on every operand; its events are the line to transmit, one `Wr` for each byte of the wire frame,
the flush, the line to receive; of the rest of the state only the transient frame buffer and the transport change. -/
def Obligations.EncodeAndSendTransmitsOneFrame : Prop :=
  ∀ (type : Byte) (id : SensorId) (value : Value) (s : State), ∃ t,
    exec (.encodeAndSend type id value) s = .next t ∧
    t = { s with dir := .rx, codec := t.codec, transport := t.transport, trace := s.trace ++ specSendEvents type id value } ∧
    t.transport.input = s.transport.input

/-- R124, R45: what `encodeAndSend` leaves of the transport: every queued byte and every byte of the wire frame has been
transmitted, and with `TRANSPORT_ECHO` they are on their way back, in order. The counter, the echo's order and the cleared
transient state are the model's (log 8, 9, 10, 12). -/
def Obligations.FlushLeavesNothingQueued : Prop :=
  ∀ (type : Byte) (id : SensorId) (value : Value) (s t : State), exec (.encodeAndSend type id value) s = .next t →
    t.transport.output = [] ∧
    t.transport.sent =
      s.transport.sent + s.transport.output.length + ((specFrame type id value).flatMap specStuff).length ∧
    t.transport.echo =
      (if s.params.transportEcho then
        s.transport.echo ++ (s.transport.output ++ (specFrame type id value).flatMap specStuff)
      else s.transport.echo) ∧
    t.codec = Codec.reset

/-- R56, R64: the output rows: 0x7E and 0x7D are sent as their pairs and no other byte is altered; one `Wr` for each wire byte,
queued in order, and nothing else changes; and the row of a byte is the one that sends its wire bytes. Executing a TX row by
itself is the model's reading (log 21). -/
def Obligations.OutputRowsSendTheirBytes : Prop :=
  (∀ s : State,
    exec .txEsc7e s = .next { s with
      transport := { s.transport with output := s.transport.output ++ [0x7D, 0x5E] }
      trace := s.trace ++ [.wr 0x7D, .wr 0x5E] } ∧
    exec .txEsc7d s = .next { s with
      transport := { s.transport with output := s.transport.output ++ [0x7D, 0x5D] }
      trace := s.trace ++ [.wr 0x7D, .wr 0x5D] }) ∧
  (∀ (b : Byte) (s : State), b ≠ 0x7E → b ≠ 0x7D →
    exec (.txLiteral b) s = .next { s with
      transport := { s.transport with output := s.transport.output ++ [b] }
      trace := s.trace ++ [.wr b] }) ∧
  (∀ (b : Byte) (s : State),
    exec (decodeTxByte b) s = .next { s with
      transport := { s.transport with output := s.transport.output ++ specStuff b }
      trace := s.trace ++ (specStuff b).map Event.wr })

/-! ### The Poll State Machine -/

/-- R61: in every state every byte falls in exactly one class, the one of the table. -/
def Obligations.EachInputByteHasOneClass : Prop :=
  ∀ (ctx : RxContext) (b : Byte),
    (∃! i : Instr, i.format = .rx ∧ i.wellFormed = true ∧ i.fits ctx = true ∧ encode ctx i = .rx ctx [b]) ∧
    encode ctx (decodeRxByte ctx b) = .rx ctx [b] ∧
    (ctx.fsm = .idle → b = 0x7E → decodeRxByte ctx b = .rxMarker) ∧
    (ctx.fsm = .idle → b ≠ 0x7E → decodeRxByte ctx b = .rxDiscard b) ∧
    (ctx.fsm = .awaitingId → b = ctx.busId → 0 < ctx.activeSlotCount.toNat → decodeRxByte ctx b = .rxIdReply b) ∧
    (ctx.fsm = .awaitingId → b = ctx.busId → ctx.activeSlotCount = 0 → decodeRxByte ctx b = .rxIdNoslot b) ∧
    (ctx.fsm = .awaitingId → b ≠ ctx.busId → decodeRxByte ctx b = .rxIdMismatch b)

/-- R97: in `Idle` the marker gives `AwaitingId` and every other byte is discarded. -/
def Obligations.IdleByteEffects : Prop :=
  ∀ (s : State) (b : Byte), s.fsm = .idle →
    exec .rxMarker s = .next { s with fsm := .awaitingId } ∧ (b ≠ 0x7E → exec (.rxDiscard b) s = .next s) ∧
    exec (decodeRxByte s.rxContext b) s = .next { s with fsm := if b = 0x7E then .awaitingId else .idle }

/-- R99: on the ID byte with an active slot: one frame of type 0x10 with the entry at the cursor, then the cursor advanced, and
`Idle` (R98); of the rest only the transient frame buffer and the transport change, and the transport is left with no byte
queued and its input as it was. -/
def Obligations.MatchedIdByteReplies : Prop :=
  ∀ (s : State) (b : Byte) (e : SensorEntry), s.fsm = .awaitingId → b = s.busId → 0 < s.activeSlotCount.toNat →
    readEntry s.cursor s = some e → ∃ t,
    exec (.rxIdReply b) s = .next t ∧
    t = { s with
      cursor := BitVec.ofNat 8 ((s.cursor.toNat + 1) % s.activeSlotCount.toNat)
      fsm := .idle
      dir := .rx
      codec := t.codec
      transport := t.transport
      trace := s.trace ++ specReplyEvents e } ∧
    t.transport.input = s.transport.input ∧ t.transport.output = []

/-- R101, R105: a matched ID byte with no active slot, and an ID byte that does not match: `Idle`, and nothing else. So a marker
and such a byte, the next two bytes of a `poll`, are read, and all else is as before them. -/
def Obligations.UnansweredIdBytes : Prop :=
  (∀ (s : State) (b : Byte), s.fsm = .awaitingId →
    (b = s.busId → s.activeSlotCount = 0 → exec (.rxIdNoslot b) s = .next { s with fsm := .idle }) ∧
    (b ≠ s.busId → exec (.rxIdMismatch b) s = .next { s with fsm := .idle })) ∧
  (∀ (s : State) (b : Byte) (rest : List Byte), s.unit = none → s.env = [] → s.polling = true → s.fsm = .idle →
    s.transport.input = 0x7E :: b :: rest → (b ≠ s.busId ∨ s.activeSlotCount = 0) →
    Host.Core.run Sys2Proof.core 2 s = .next { s with
      transport := { s.transport with input := rest }
      trace := s.trace ++ [.rd 0x7E, .rd b] })

/-- R132: a reply from a slot never written sends the reset entry. -/
def Obligations.UnwrittenSlotSendsZeroEntry : Prop :=
  ∀ (s : State) (b : Byte), s.fsm = .awaitingId → b = s.busId → 0 < s.activeSlotCount.toNat →
    readEntry s.cursor s = some ⟨0x0000, 0x00000000⟩ →
    ∃ t, exec (.rxIdReply b) s = .next t ∧
      writtenBytes t.trace = writtenBytes s.trace ++ [0x10, 0x00, 0x00, 0x00, 0x00, 0x00, 0x00, 0xEF]

/-- The model's choice (log 16): off the condition of its row an RX or TX row is refused by name, and only there; a reply whose
cursor names a slot that does not exist (20_memory.md R42) faults (log 17). -/
def Obligations.RowsStopOffTheirCondition : Prop :=
  ∀ (s : State) (b : Byte),
    (exec .rxMarker s = .refused (.conditionNotMet "RX_MARKER") ↔ s.fsm ≠ .idle) ∧
    (exec (.rxDiscard b) s = .refused (.conditionNotMet "RX_DISCARD") ↔ ¬ (s.fsm = .idle ∧ b ≠ 0x7E)) ∧
    (exec (.rxIdReply b) s = .refused (.conditionNotMet "RX_ID_REPLY") ↔
      ¬ (s.fsm = .awaitingId ∧ b = s.busId ∧ s.activeSlotCount ≠ 0)) ∧
    (exec (.rxIdReply b) s = .fault (.noSuchSlot s.cursor) ↔
      s.fsm = .awaitingId ∧ b = s.busId ∧ s.activeSlotCount ≠ 0 ∧ s.table.length ≤ s.cursor.toNat) ∧
    (exec (.rxIdNoslot b) s = .refused (.conditionNotMet "RX_ID_NOSLOT") ↔
      ¬ (s.fsm = .awaitingId ∧ b = s.busId ∧ s.activeSlotCount = 0)) ∧
    (exec (.rxIdMismatch b) s = .refused (.conditionNotMet "RX_ID_MISMATCH") ↔ ¬ (s.fsm = .awaitingId ∧ b ≠ s.busId)) ∧
    (exec (.txLiteral b) s = .refused (.conditionNotMet "TX_LITERAL") ↔ b = 0x7E ∨ b = 0x7D)

/-- R102: in the hold a step changes nothing, whatever move of the host is due, until the transport makes bytes available, the wait
is abandoned, which exists only with `ID_WAIT_ABANDON`, or the block is reset. Every move a schedule can hold has its clause. The
moves as data are log 4, 7 and 8, the hold as a step that changes nothing log 11, what reset does to the call log 19, and that a host
call first in the schedule keeps the moves behind it back log 27. -/
def Obligations.HoldEndsOnlyByBytesAbandonOrReset : Prop :=
  ∀ s : State, s.unit = none → s.polling = true → s.fsm = .awaitingId → s.transport.input = [] →
    (s.env = [] → step s = .next s) ∧
    (∀ c rest, s.env = .call c :: rest → step s = .next s) ∧
    (∀ rest, s.env = .wait :: rest → step s = .next { s with env := rest }) ∧
    (∀ bytes rest, s.env = .rx bytes :: rest ∨ s.env = .rxNow bytes :: rest →
      step s = .next { s with env := rest, transport := { s.transport with input := bytes } }) ∧
    (∀ n rest, s.env = .echo n :: rest →
      step s = .next { s with
        env := rest
        transport := { s.transport with input := s.transport.echo.take n, echo := s.transport.echo.drop n } }) ∧
    (∀ rest, s.env = .abandon :: rest →
      step s = .next { s with env := rest, fsm := if s.params.idWaitAbandon then .idle else .awaitingId }) ∧
    (∀ rest, s.env = .reset :: rest → ∃ t, step s = .next t ∧ t.fsm = .idle ∧ t.polling = false ∧ t.init = false ∧
      t.trace = s.trace ∧ t.transport = s.transport)

/-! ### Steps -/

/-- A step runs the decoded instruction: the unit request, the host call, or the oldest input byte of a `poll` in progress, in the
state past the instruction's own words, whatever move that leaves the turn to the block is first in the schedule, an abandon among
them, which abandons nothing where a byte is available (R102); and a table word placed by `withFetchWord` is what the next step
runs. The moves are log 4 and 7, the unit port and the words log 5, 14 and 15. -/
def Obligations.StepRunsTheDecodedInstruction : Prop :=
  (∀ (s : State) (u : UnitCall) (i : Instr), s.unit = some u → decodeUnit u = .ok i →
    step s = exec i { s with unit := none }) ∧
  (∀ (s : State) (c : HostCall) (rest : List EnvMove), s.unit = none → s.polling = false → s.env = .call c :: rest →
    step s = exec (decodeHost c) { s with env := rest }) ∧
  (∀ (s : State) (b : Byte) (input : List Byte) (env : List EnvMove), s.unit = none → s.polling = true →
    s.transport.input = b :: input →
    BlockTurn s.env env →
    step s = exec (decodeRxByte s.rxContext b) { s with
      env := env
      transport := { s.transport with input := input }
      trace := s.trace ++ [.rd b] }) ∧
  (∀ (s : State) (nbits w : Nat) (i : Instr), decodeTableWord nbits w = some i →
    ∃ t, step (s.withFetchWord nbits w) = exec i t ∧ t.table = s.table ∧ t.transport = s.transport ∧ t.busId = s.busId ∧
      t.activeSlotCount = s.activeSlotCount ∧ t.cursor = s.cursor)

/-- R11, R65: the transport's moves: bytes arrive at the end of the input, at once or once the block waits, and nothing else
changes. The schedule is the model's (log 4, 8). -/
def Obligations.ArrivalsOnlyExtendTheInput : Prop :=
  ∀ (s : State) (rest : List EnvMove), s.unit = none →
    (∀ bytes, s.env = .rxNow bytes :: rest →
      step s = .next { s with env := rest, transport := { s.transport with input := s.transport.input ++ bytes } }) ∧
    (∀ bytes, s.env = .rx bytes :: rest → s.polling = false →
      step s = .next { s with env := rest, transport := { s.transport with input := s.transport.input ++ bytes } }) ∧
    (∀ n, s.env = .echo n :: rest →
      step s = .next { s with
        env := rest
        transport := { s.transport with
          input := s.transport.input ++ s.transport.echo.take n
          echo := s.transport.echo.drop n } })

/-- Words of the encodings, from 95_test_vectors.md section 7 (M1 to M10), section 4 (D1) and 30_encoding.md R56. -/
def Obligations.SpecWordsDecode : Prop :=
  decode (.rx ⟨.idle, 5, 1⟩ [0x7E]) = .ok (.rxMarker, []) ∧
  decode (.rx ⟨.idle, 5, 1⟩ [0x7D, 0x5E]) = .ok (.rxDiscard 0x7D, [0x5E]) ∧
  decode (.rx ⟨.awaitingId, 5, 1⟩ [0x05]) = .ok (.rxIdReply 0x05, []) ∧
  decode (.rx ⟨.awaitingId, 5, 0⟩ [0x05]) = .ok (.rxIdNoslot 0x05, []) ∧
  decode (.rx ⟨.awaitingId, 5, 1⟩ [0x7E]) = .ok (.rxIdMismatch 0x7E, []) ∧
  decode (.rx ⟨.awaitingId, 0x7E, 1⟩ [0x7E]) = .ok (.rxIdReply 0x7E, []) ∧
  decode (.rx ⟨.awaitingId, 0x85, 1⟩ [0x05]) = .ok (.rxIdMismatch 0x05, []) ∧
  decodeTxByte 0x7E = .txEsc7e ∧ decodeTxByte 0x7D = .txEsc7d ∧ decodeTxByte 0x7F = .txLiteral 0x7F ∧
  decode (.unit (.frame 0xC40000002A010010)) = .ok (.frameSensorData 0x0100 0x0000002A 0xC4, []) ∧
  decode (.host (.initializeDevice 5 3)) = .ok (.initializeDevice 5 3, [])

/-- The encoder and the decoder agree: every well-formed instruction, in every context it fits, decodes back from its encoding,
with every operand at every value. -/
def Obligations.DecodeOfEncode : Prop :=
  ∀ (ctx : RxContext) (i : Instr), i.wellFormed = true → i.fits ctx = true → decode (encode ctx i) = .ok (i, [])

/-- The other direction: what decodes to an instruction, with no byte left over, is that instruction's encoding. -/
def Obligations.EncodeOfDecode : Prop :=
  ∀ (e : Encoded) (i : Instr), decode e = .ok (i, []) →
    i.wellFormed = true ∧ ∃ ctx : RxContext, i.fits ctx = true ∧ encode ctx i = e

/-! ### Who writes what -/

/-- R17, R26: the configuration and `S.init` are written by an accepted `initialize` alone, and stay until reset. -/
def Obligations.ConfigurationIsSetOnce : Prop :=
  (∀ (i : Instr) (s t : State), exec i s = .next t →
    (t.init = s.init ∧ t.busId = s.busId ∧ t.activeSlotCount = s.activeSlotCount) ∨
    (∃ busId n, i = .initializeDevice busId n ∧ s.init = false ∧ t.init = true ∧ t.busId = busId ∧
      t.activeSlotCount = n)) ∧
  (∀ s t : State, step s = .next t → s.init = true → s.env.head? ≠ some .reset →
    t.init = true ∧ t.busId = s.busId ∧ t.activeSlotCount = s.activeSlotCount)

/-- R34, R20, R19, R129: an instruction changes the table only as `setSensorData`, one whole entry, or as `initialize`, every entry
zero; and a step only by executing one of these two for the host, or as a reset, every entry zero. -/
def Obligations.TableIsWrittenByHostCallsOnly : Prop :=
  (∀ (i : Instr) (s t : State), exec i s = .next t →
    t.table = s.table ∨
    (∃ slot id value, i = .setSensorData slot id value ∧ s.init = true ∧ slot.toNat < s.table.length ∧
      t.table = s.table.set slot.toNat ⟨id, value⟩) ∨
    (∃ busId n, i = .initializeDevice busId n ∧ s.init = false ∧
      t.table = List.replicate s.table.length ⟨0x0000, 0x00000000⟩)) ∧
  (∀ s t : State, step s = .next t →
    t.table = s.table ∨
    (∃ slot id value rest, s.env = .call (.setSensorData slot id value) :: rest ∧ s.polling = false ∧ s.init = true ∧
      slot.toNat < s.table.length ∧ t.table = s.table.set slot.toNat ⟨id, value⟩) ∨
    (∃ busId n rest, s.env = .call (.initializeDevice busId n) :: rest ∧ s.polling = false ∧ s.init = false ∧
      t.table = List.replicate s.table.length ⟨0x0000, 0x00000000⟩) ∨
    (∃ rest, s.env = .reset :: rest ∧ t.table = List.replicate s.table.length ⟨0x0000, 0x00000000⟩))

/-- R100, R22, R129: an instruction changes the cursor only as a reply, to its successor modulo the count, and as `initialize`, to
0; and a step only by a reply to the oldest input byte, by an `initialize` of the host, or as a reset. -/
def Obligations.CursorMovesOnlyOnReply : Prop :=
  (∀ (i : Instr) (s t : State), exec i s = .next t →
    t.cursor = s.cursor ∨
    (i = .rxIdReply s.busId ∧ s.fsm = .awaitingId ∧ 0 < s.activeSlotCount.toNat ∧
      t.cursor = BitVec.ofNat 8 ((s.cursor.toNat + 1) % s.activeSlotCount.toNat)) ∨
    (∃ busId n, i = .initializeDevice busId n ∧ s.init = false ∧ t.cursor = 0)) ∧
  (∀ s t : State, step s = .next t →
    t.cursor = s.cursor ∨
    (s.polling = true ∧ s.fsm = .awaitingId ∧ s.transport.input.head? = some s.busId ∧ 0 < s.activeSlotCount.toNat ∧
      t.cursor = BitVec.ofNat 8 ((s.cursor.toNat + 1) % s.activeSlotCount.toNat)) ∨
    (∃ busId n rest, s.env = .call (.initializeDevice busId n) :: rest ∧ s.polling = false ∧ s.init = false ∧ t.cursor = 0) ∨
    (∃ rest, s.env = .reset :: rest ∧ t.cursor = 0))

/-- R25, R79: an instruction leaves the direction alone or, where it transmits a frame, leaves it at receive. -/
def Obligations.DirectionIsRestored : Prop :=
  ∀ (i : Instr) (s t : State), exec i s = .next t →
    (t.dir = s.dir ∧ ∀ d, t.trace.count (.dir d) = s.trace.count (.dir d)) ∨
    (t.dir = .rx ∧ t.trace.count (.dir .tx) = s.trace.count (.dir .tx) + 1 ∧
      t.trace.count (.dir .rx) = s.trace.count (.dir .rx) + 1 ∧
      ((∃ type id value, i = .encodeAndSend type id value) ∨ ∃ b, i = .rxIdReply b))

/-- 00_scope.md section 4: no step changes `CAPACITY` or a parameter. -/
def Obligations.ParametersNeverChange : Prop :=
  ∀ s t : State, step s = .next t → t.table.length = s.table.length ∧ t.params = s.params

/-- R103: a step gives at most one reply, and one only on the ID byte `S.busId` with an active slot; `AwaitingId` is entered only
by a marker. -/
def Obligations.AtMostOneReplyPerMarker : Prop :=
  ∀ s t : State, s.unit = none → step s = .next t →
    (replyCount t.trace = replyCount s.trace ∨
      (replyCount t.trace = replyCount s.trace + 1 ∧ s.polling = true ∧ s.fsm = .awaitingId ∧ t.fsm = .idle ∧
        s.transport.input.head? = some s.busId ∧ 0 < s.activeSlotCount.toNat)) ∧
    (s.fsm = .idle → t.fsm = .awaitingId → s.polling = true ∧ s.transport.input.head? = some 0x7E)

/-- R45, R41: the bytes read, then those still buffered, are the bytes that arrived, in order, each once. The moves by which they
arrive are log 4 and 8. -/
def Obligations.InputIsReadInOrderOnce : Prop :=
  ∀ s t : State, s.unit = none → step s = .next t → ∃ arrived : List Byte,
    readBytes t.trace ++ t.transport.input = readBytes s.trace ++ s.transport.input ++ arrived ∧
    (arrived = [] ∨ (∃ rest, s.env = .rx arrived :: rest ∨ s.env = .rxNow arrived :: rest) ∨
      ∃ n rest, s.env = .echo n :: rest ∧ arrived = s.transport.echo.take n)

/-- R124, R45: every byte written is queued or has been transmitted, counted. -/
def Obligations.WrittenBytesAreQueuedOrSent : Prop :=
  ∀ s t : State, step s = .next t →
    s.transport.sent + s.transport.output.length = (writtenBytes s.trace).length →
    t.transport.sent + t.transport.output.length = (writtenBytes t.trace).length

/-! ### Invariants and the whole machine -/

/-- `Inv` holds right after reset, for every capacity and every parameter. -/
def Obligations.ResetMeetsTheInvariants : Prop :=
  ∀ (capacity : Nat) (params : Config.Params), 1 ≤ capacity → capacity ≤ 255 → Inv (State.resetFor capacity params)

/-- R29, R30, R31, R12: every step keeps the invariants, from every state that meets them. The clauses `codec_clear`, `output_empty`
and `unit_none` of `Inv` are the model's (log 12, 10 and 18, 14). -/
def Obligations.EveryStepKeepsTheInvariants : Prop :=
  ∀ s t : State, Inv s → step s = .next t → Inv t

/-- R107, R63, R90: from a state that meets the invariants no step faults or is refused; a rejection is a next state (log 1). -/
def Obligations.NoStepStops : Prop :=
  ∀ s : State, Inv s → ∃ t, step s = .next t

/-- R133, R46, R79: reads happen in receive, writes between the turn to transmit and the flush, the turn back after the flush;
every step leaves the line in receive. -/
def Obligations.EveryStepKeepsTheLineOrder : Prop :=
  ∀ s t : State, s.unit = none → linePhase s.trace = some .receive → step s = .next t →
    linePhase t.trace = some .receive

/-- R58, R64: no step writes the marker. -/
def Obligations.NoStepWritesTheMarker : Prop :=
  ∀ s t : State, step s = .next t → (0x7E : Byte) ∉ writtenBytes s.trace → (0x7E : Byte) ∉ writtenBytes t.trace

/-- R93, R97 to R101: the steps of a `poll` over the bytes available are the spec's `poll`, by its closed forms: its events, cursor
and state; then the call returns, in `Idle`, or holds. A pass as a step is log 2 and 3, the unchanged transient state log 12. -/
def Obligations.PollIsTheSpecsPoll : Prop :=
  ∀ s : State, Inv s → s.polling = true → s.env = [] →
    ∃ t : State, Host.Core.run Sys2Proof.core s.transport.input.length s = .next t ∧
      t = { s with
        fsm := (specPollOf s).fsm
        cursor := BitVec.ofNat 8 (specPollOf s).cursor
        trace := s.trace ++ (specPollOf s).events
        transport := t.transport } ∧
      t.transport.input = [] ∧ t.transport.output = [] ∧
      step t = .next (if (specPollOf s).fsm = .idle then { t with polling := false, statuses := t.statuses ++ [.ok] } else t)

/-- R104: whatever the input, the replies of a `poll` take the slots in turn from the cursor: the `j`-th sends the entry at
`(cursor + j) mod count`, and after `m` replies the cursor is `(cursor + m) mod count`. A byte as a step is log 2. -/
def Obligations.RepliesGoRoundRobin : Prop :=
  ∀ s : State, Inv s → s.polling = true → s.env = [] → 0 < s.activeSlotCount.toNat →
    ∃ (t : State) (events : List Event),
      Host.Core.run Sys2Proof.core s.transport.input.length s = .next t ∧ t.trace = s.trace ++ events ∧
      t.cursor.toNat = (s.cursor.toNat + replyCount events) % s.activeSlotCount.toNat ∧
      writtenBytes events = (List.range (replyCount events)).flatMap fun j =>
        (specFrame 0x10 (s.table.getD ((s.cursor.toNat + j) % s.activeSlotCount.toNat) ⟨0, 0⟩).id
          (s.table.getD ((s.cursor.toNat + j) % s.activeSlotCount.toNat) ⟨0, 0⟩).value).flatMap specStuff

/-- R96: with the table fixed, the trace does not depend on how the input is divided. Two schedules of `poll` calls, arrivals at any
moment and moves of the block, in any number and any order, that bring the same bytes, and under which all of them are read, give
one trace, cursor and state. And a division in two is read to its end: the same bytes in one `poll`, or divided over an arrival
during the wait or over two `poll` calls. The schedule as data is log 4. -/
def Obligations.DividingTheInputChangesNothing : Prop :=
  (∀ (s : State) (xs ys : List EnvMove) (j k : Nat) (t u : State), Inv s →
    (∀ m ∈ xs, pollsOrArrives m = true) → (∀ m ∈ ys, pollsOrArrives m = true) → arrivingBytes xs = arrivingBytes ys →
    Host.Core.run Sys2Proof.core j { s with env := xs } = .next t → t.env = [] → t.transport.input = [] →
    Host.Core.run Sys2Proof.core k { s with env := ys } = .next u → u.env = [] → u.transport.input = [] →
    u.trace = t.trace ∧ u.cursor = t.cursor ∧ u.fsm = t.fsm ∧ u.table = t.table) ∧
  (∀ (s : State) (xs ys : List Byte), Inv s → s.polling = true →
    ∃ (k : Nat) (t u : State),
      Host.Core.run Sys2Proof.core (xs.length + ys.length)
        { s with env := [], transport := { s.transport with input := xs ++ ys } } = .next t ∧
      Host.Core.run Sys2Proof.core k
        { s with env := [.rx ys, .call .poll], transport := { s.transport with input := xs } } = .next u ∧
      u.trace = t.trace ∧ u.cursor = t.cursor ∧ u.fsm = t.fsm ∧ u.table = t.table ∧
      t.transport.input = [] ∧ u.transport.input = [])

/-- R106: an echoed reply starts no poll: each of its bytes, read in `Idle`, is discarded. -/
def Obligations.EchoedReplyIsDiscarded : Prop :=
  ∀ (s : State) (c : Frame), s.unit = none → s.env = [] → s.polling = true → s.fsm = .idle →
    s.transport.input = wireFrame c →
    (0x7E : Byte) ∉ wireFrame c ∧
    Host.Core.run Sys2Proof.core (wireFrame c).length s = .next { s with
      transport := { s.transport with input := [] }
      trace := s.trace ++ (wireFrame c).map Event.rd }

/-- R44, R137: a completed `setSensorData` of any slot is seen by every reply of that slot, under every schedule that follows, until
the slot is written again or the block is reset: the slot reads as the entry written, and a step that replies from it sends that
entry. And at the cursor's slot the write, an arriving poll, and a `poll` call do send it. The schedule as data is log 4. -/
def Obligations.WriteIsSeenByTheNextReply : Prop :=
  (∀ (s : State) (slot : Byte) (id : SensorId) (value : Value) (rest : List EnvMove) (k : Nat), Inv s → s.init = true →
    s.polling = false → slot.toNat < s.table.length → s.env = .call (.setSensorData slot id value) :: rest →
    (∀ m ∈ rest, overwrites slot m = false) →
    ∃ t : State, Host.Core.run Sys2Proof.core (k + 1) s = .next t ∧ readEntry slot t = some ⟨id, value⟩ ∧
      ∀ u : State, step t = .next u → t.cursor = slot → replyCount u.trace ≠ replyCount t.trace →
        u.trace = t.trace ++ .rd t.busId :: specReplyEvents ⟨id, value⟩) ∧
  (∀ (s : State) (id : SensorId) (value : Value) (rest : List EnvMove), Inv s → s.init = true → s.polling = false →
    s.transport.input = [] → 0 < s.activeSlotCount.toNat →
    s.env = .call (.setSensorData s.cursor id value) :: .rx [0x7E, s.busId] :: .call .poll :: .wait :: .wait :: rest →
    ∃ t : State, Host.Core.run Sys2Proof.core 5 s = .next t ∧ readEntry s.cursor t = some ⟨id, value⟩ ∧
      t.trace = s.trace ++ [.rd 0x7E, .rd s.busId] ++ specReplyEvents ⟨id, value⟩)

/-- R129, R11: between host transactions the block waits: with no move to come a step changes nothing, and a move of the block or an
abandon, which finds no wait for an ID byte, is used up and changes nothing else. A wait as a step is log 11, the moves log 4 and
7. -/
def Obligations.WaitBetweenTransactionsChangesNothing : Prop :=
  ∀ s : State, s.unit = none → s.polling = false →
    (s.env = [] → step s = .next s) ∧
    (∀ rest, s.env = .wait :: rest ∨ s.env = .abandon :: rest → step s = .next { s with env := rest })
end

