-- ==== Sys2Proof/Laws/Crc.lean ====
section
/-! SUPPORT. What one iteration of the CRC Engine computes, said once over the naturals. -/

namespace Sys2Proof.Machine

/-- One iteration from an accumulator of at most 255: the byte is added, and a carry out of bit 7 is added back. -/
theorem crcStep_toNat (acc : BitVec 16) (b : Byte) (h : acc.toNat ≤ 255) :
    (crcStep acc b).toNat = if acc.toNat + b.toNat < 256 then acc.toNat + b.toNat else acc.toNat + b.toNat - 255 := by
  have hb := b.isLt
  have low : (255 : BitVec 16).toNat = 255 := rfl
  have mask : ∀ n : Nat, n &&& 255 = n % 256 := fun n => Nat.and_two_pow_sub_one_eq_mod n 8
  simp only [crcStep, BitVec.toNat_and, BitVec.toNat_add, BitVec.toNat_ushiftRight, BitVec.truncate_eq_setWidth,
    BitVec.toNat_setWidth, Nat.shiftRight_eq_div_pow, Nat.reducePow, low, mask]
  split <;> omega

theorem crcStep_le (acc : BitVec 16) (b : Byte) (h : acc.toNat ≤ 255) : (crcStep acc b).toNat ≤ 255 := by
  have hb := b.isLt
  rw [crcStep_toNat acc b h]
  split <;> omega

/-- The accumulator stays below 256 over any bytes. -/
theorem crcFold_le (bytes : List Byte) (acc : BitVec 16) (h : acc.toNat ≤ 255) : (bytes.foldl crcStep acc).toNat ≤ 255 := by
  induction bytes generalizing acc with
  | nil => simpa using h
  | cons b rest ih => exact ih _ (crcStep_le acc b h)

theorem crcAccumulate_le (bytes : List Byte) : (crcAccumulate bytes).toNat ≤ 255 :=
  crcFold_le bytes 0 (by decide)

/-- The result is the complement of the accumulator in eight bits. -/
theorem computeCRC_toNat (c : Frame) : (computeCRC c).toNat = 255 - (crcAccumulate (frameBytes c)).toNat := by
  have h := crcAccumulate_le (frameBytes c)
  simp only [computeCRC, BitVec.extractLsb'_toNat, BitVec.toNat_not, Nat.shiftRight_zero, Nat.reducePow]
  omega

end Sys2Proof.Machine
end

