-- ==== Sys2Proof/Laws/State.lean ====
section
/-! SUPPORT. One lemma per field per named update of the state, true by rfl; the sensor table's operations keep its length and
its form. -/

namespace Sys2Proof.Machine.State

variable (s : State)


/-! ### `configure` -/

@[simp] theorem configure_init (b n : Byte) : (s.configure b n).init = true := rfl
@[simp] theorem configure_busId (b n : Byte) : (s.configure b n).busId = b := rfl
@[simp] theorem configure_activeSlotCount (b n : Byte) : (s.configure b n).activeSlotCount = n := rfl
@[simp] theorem configure_table (b n : Byte) : (s.configure b n).table = s.table := rfl
@[simp] theorem configure_cursor (b n : Byte) : (s.configure b n).cursor = s.cursor := rfl
@[simp] theorem configure_fsm (b n : Byte) : (s.configure b n).fsm = s.fsm := rfl
@[simp] theorem configure_dir (b n : Byte) : (s.configure b n).dir = s.dir := rfl
@[simp] theorem configure_codec (b n : Byte) : (s.configure b n).codec = s.codec := rfl
@[simp] theorem configure_polling (b n : Byte) : (s.configure b n).polling = s.polling := rfl
@[simp] theorem configure_unit (b n : Byte) : (s.configure b n).unit = s.unit := rfl
@[simp] theorem configure_transport (b n : Byte) : (s.configure b n).transport = s.transport := rfl
@[simp] theorem configure_env (b n : Byte) : (s.configure b n).env = s.env := rfl
@[simp] theorem configure_trace (b n : Byte) : (s.configure b n).trace = s.trace := rfl
@[simp] theorem configure_statuses (b n : Byte) : (s.configure b n).statuses = s.statuses := rfl
@[simp] theorem configure_params (b n : Byte) : (s.configure b n).params = s.params := rfl

/-! ### `setTable` -/

@[simp] theorem setTable_init (v : Table) : (s.setTable v).init = s.init := rfl
@[simp] theorem setTable_busId (v : Table) : (s.setTable v).busId = s.busId := rfl
@[simp] theorem setTable_activeSlotCount (v : Table) : (s.setTable v).activeSlotCount = s.activeSlotCount := rfl
@[simp] theorem setTable_table (v : Table) : (s.setTable v).table = v := rfl
@[simp] theorem setTable_cursor (v : Table) : (s.setTable v).cursor = s.cursor := rfl
@[simp] theorem setTable_fsm (v : Table) : (s.setTable v).fsm = s.fsm := rfl
@[simp] theorem setTable_dir (v : Table) : (s.setTable v).dir = s.dir := rfl
@[simp] theorem setTable_codec (v : Table) : (s.setTable v).codec = s.codec := rfl
@[simp] theorem setTable_polling (v : Table) : (s.setTable v).polling = s.polling := rfl
@[simp] theorem setTable_unit (v : Table) : (s.setTable v).unit = s.unit := rfl
@[simp] theorem setTable_transport (v : Table) : (s.setTable v).transport = s.transport := rfl
@[simp] theorem setTable_env (v : Table) : (s.setTable v).env = s.env := rfl
@[simp] theorem setTable_trace (v : Table) : (s.setTable v).trace = s.trace := rfl
@[simp] theorem setTable_statuses (v : Table) : (s.setTable v).statuses = s.statuses := rfl
@[simp] theorem setTable_params (v : Table) : (s.setTable v).params = s.params := rfl

/-! ### `setCursor` -/

@[simp] theorem setCursor_init (v : Byte) : (s.setCursor v).init = s.init := rfl
@[simp] theorem setCursor_busId (v : Byte) : (s.setCursor v).busId = s.busId := rfl
@[simp] theorem setCursor_activeSlotCount (v : Byte) : (s.setCursor v).activeSlotCount = s.activeSlotCount := rfl
@[simp] theorem setCursor_table (v : Byte) : (s.setCursor v).table = s.table := rfl
@[simp] theorem setCursor_cursor (v : Byte) : (s.setCursor v).cursor = v := rfl
@[simp] theorem setCursor_fsm (v : Byte) : (s.setCursor v).fsm = s.fsm := rfl
@[simp] theorem setCursor_dir (v : Byte) : (s.setCursor v).dir = s.dir := rfl
@[simp] theorem setCursor_codec (v : Byte) : (s.setCursor v).codec = s.codec := rfl
@[simp] theorem setCursor_polling (v : Byte) : (s.setCursor v).polling = s.polling := rfl
@[simp] theorem setCursor_unit (v : Byte) : (s.setCursor v).unit = s.unit := rfl
@[simp] theorem setCursor_transport (v : Byte) : (s.setCursor v).transport = s.transport := rfl
@[simp] theorem setCursor_env (v : Byte) : (s.setCursor v).env = s.env := rfl
@[simp] theorem setCursor_trace (v : Byte) : (s.setCursor v).trace = s.trace := rfl
@[simp] theorem setCursor_statuses (v : Byte) : (s.setCursor v).statuses = s.statuses := rfl
@[simp] theorem setCursor_params (v : Byte) : (s.setCursor v).params = s.params := rfl

/-! ### `setFsm` -/

@[simp] theorem setFsm_init (v : Fsm) : (s.setFsm v).init = s.init := rfl
@[simp] theorem setFsm_busId (v : Fsm) : (s.setFsm v).busId = s.busId := rfl
@[simp] theorem setFsm_activeSlotCount (v : Fsm) : (s.setFsm v).activeSlotCount = s.activeSlotCount := rfl
@[simp] theorem setFsm_table (v : Fsm) : (s.setFsm v).table = s.table := rfl
@[simp] theorem setFsm_cursor (v : Fsm) : (s.setFsm v).cursor = s.cursor := rfl
@[simp] theorem setFsm_fsm (v : Fsm) : (s.setFsm v).fsm = v := rfl
@[simp] theorem setFsm_dir (v : Fsm) : (s.setFsm v).dir = s.dir := rfl
@[simp] theorem setFsm_codec (v : Fsm) : (s.setFsm v).codec = s.codec := rfl
@[simp] theorem setFsm_polling (v : Fsm) : (s.setFsm v).polling = s.polling := rfl
@[simp] theorem setFsm_unit (v : Fsm) : (s.setFsm v).unit = s.unit := rfl
@[simp] theorem setFsm_transport (v : Fsm) : (s.setFsm v).transport = s.transport := rfl
@[simp] theorem setFsm_env (v : Fsm) : (s.setFsm v).env = s.env := rfl
@[simp] theorem setFsm_trace (v : Fsm) : (s.setFsm v).trace = s.trace := rfl
@[simp] theorem setFsm_statuses (v : Fsm) : (s.setFsm v).statuses = s.statuses := rfl
@[simp] theorem setFsm_params (v : Fsm) : (s.setFsm v).params = s.params := rfl

/-! ### `setDir` -/

@[simp] theorem setDir_init (v : Dir) : (s.setDir v).init = s.init := rfl
@[simp] theorem setDir_busId (v : Dir) : (s.setDir v).busId = s.busId := rfl
@[simp] theorem setDir_activeSlotCount (v : Dir) : (s.setDir v).activeSlotCount = s.activeSlotCount := rfl
@[simp] theorem setDir_table (v : Dir) : (s.setDir v).table = s.table := rfl
@[simp] theorem setDir_cursor (v : Dir) : (s.setDir v).cursor = s.cursor := rfl
@[simp] theorem setDir_fsm (v : Dir) : (s.setDir v).fsm = s.fsm := rfl
@[simp] theorem setDir_dir (v : Dir) : (s.setDir v).dir = v := rfl
@[simp] theorem setDir_codec (v : Dir) : (s.setDir v).codec = s.codec := rfl
@[simp] theorem setDir_polling (v : Dir) : (s.setDir v).polling = s.polling := rfl
@[simp] theorem setDir_unit (v : Dir) : (s.setDir v).unit = s.unit := rfl
@[simp] theorem setDir_transport (v : Dir) : (s.setDir v).transport = s.transport := rfl
@[simp] theorem setDir_env (v : Dir) : (s.setDir v).env = s.env := rfl
@[simp] theorem setDir_trace (v : Dir) : (s.setDir v).trace = s.trace := rfl
@[simp] theorem setDir_statuses (v : Dir) : (s.setDir v).statuses = s.statuses := rfl
@[simp] theorem setDir_params (v : Dir) : (s.setDir v).params = s.params := rfl

/-! ### `setCodec` -/

@[simp] theorem setCodec_init (v : Codec) : (s.setCodec v).init = s.init := rfl
@[simp] theorem setCodec_busId (v : Codec) : (s.setCodec v).busId = s.busId := rfl
@[simp] theorem setCodec_activeSlotCount (v : Codec) : (s.setCodec v).activeSlotCount = s.activeSlotCount := rfl
@[simp] theorem setCodec_table (v : Codec) : (s.setCodec v).table = s.table := rfl
@[simp] theorem setCodec_cursor (v : Codec) : (s.setCodec v).cursor = s.cursor := rfl
@[simp] theorem setCodec_fsm (v : Codec) : (s.setCodec v).fsm = s.fsm := rfl
@[simp] theorem setCodec_dir (v : Codec) : (s.setCodec v).dir = s.dir := rfl
@[simp] theorem setCodec_codec (v : Codec) : (s.setCodec v).codec = v := rfl
@[simp] theorem setCodec_polling (v : Codec) : (s.setCodec v).polling = s.polling := rfl
@[simp] theorem setCodec_unit (v : Codec) : (s.setCodec v).unit = s.unit := rfl
@[simp] theorem setCodec_transport (v : Codec) : (s.setCodec v).transport = s.transport := rfl
@[simp] theorem setCodec_env (v : Codec) : (s.setCodec v).env = s.env := rfl
@[simp] theorem setCodec_trace (v : Codec) : (s.setCodec v).trace = s.trace := rfl
@[simp] theorem setCodec_statuses (v : Codec) : (s.setCodec v).statuses = s.statuses := rfl
@[simp] theorem setCodec_params (v : Codec) : (s.setCodec v).params = s.params := rfl

/-! ### `setPolling` -/

@[simp] theorem setPolling_init (v : Bool) : (s.setPolling v).init = s.init := rfl
@[simp] theorem setPolling_busId (v : Bool) : (s.setPolling v).busId = s.busId := rfl
@[simp] theorem setPolling_activeSlotCount (v : Bool) : (s.setPolling v).activeSlotCount = s.activeSlotCount := rfl
@[simp] theorem setPolling_table (v : Bool) : (s.setPolling v).table = s.table := rfl
@[simp] theorem setPolling_cursor (v : Bool) : (s.setPolling v).cursor = s.cursor := rfl
@[simp] theorem setPolling_fsm (v : Bool) : (s.setPolling v).fsm = s.fsm := rfl
@[simp] theorem setPolling_dir (v : Bool) : (s.setPolling v).dir = s.dir := rfl
@[simp] theorem setPolling_codec (v : Bool) : (s.setPolling v).codec = s.codec := rfl
@[simp] theorem setPolling_polling (v : Bool) : (s.setPolling v).polling = v := rfl
@[simp] theorem setPolling_unit (v : Bool) : (s.setPolling v).unit = s.unit := rfl
@[simp] theorem setPolling_transport (v : Bool) : (s.setPolling v).transport = s.transport := rfl
@[simp] theorem setPolling_env (v : Bool) : (s.setPolling v).env = s.env := rfl
@[simp] theorem setPolling_trace (v : Bool) : (s.setPolling v).trace = s.trace := rfl
@[simp] theorem setPolling_statuses (v : Bool) : (s.setPolling v).statuses = s.statuses := rfl
@[simp] theorem setPolling_params (v : Bool) : (s.setPolling v).params = s.params := rfl

/-! ### `setUnit` -/

@[simp] theorem setUnit_init (v : Option UnitCall) : (s.setUnit v).init = s.init := rfl
@[simp] theorem setUnit_busId (v : Option UnitCall) : (s.setUnit v).busId = s.busId := rfl
@[simp] theorem setUnit_activeSlotCount (v : Option UnitCall) : (s.setUnit v).activeSlotCount = s.activeSlotCount := rfl
@[simp] theorem setUnit_table (v : Option UnitCall) : (s.setUnit v).table = s.table := rfl
@[simp] theorem setUnit_cursor (v : Option UnitCall) : (s.setUnit v).cursor = s.cursor := rfl
@[simp] theorem setUnit_fsm (v : Option UnitCall) : (s.setUnit v).fsm = s.fsm := rfl
@[simp] theorem setUnit_dir (v : Option UnitCall) : (s.setUnit v).dir = s.dir := rfl
@[simp] theorem setUnit_codec (v : Option UnitCall) : (s.setUnit v).codec = s.codec := rfl
@[simp] theorem setUnit_polling (v : Option UnitCall) : (s.setUnit v).polling = s.polling := rfl
@[simp] theorem setUnit_unit (v : Option UnitCall) : (s.setUnit v).unit = v := rfl
@[simp] theorem setUnit_transport (v : Option UnitCall) : (s.setUnit v).transport = s.transport := rfl
@[simp] theorem setUnit_env (v : Option UnitCall) : (s.setUnit v).env = s.env := rfl
@[simp] theorem setUnit_trace (v : Option UnitCall) : (s.setUnit v).trace = s.trace := rfl
@[simp] theorem setUnit_statuses (v : Option UnitCall) : (s.setUnit v).statuses = s.statuses := rfl
@[simp] theorem setUnit_params (v : Option UnitCall) : (s.setUnit v).params = s.params := rfl

/-! ### `setTransport` -/

@[simp] theorem setTransport_init (v : Transport) : (s.setTransport v).init = s.init := rfl
@[simp] theorem setTransport_busId (v : Transport) : (s.setTransport v).busId = s.busId := rfl
@[simp] theorem setTransport_activeSlotCount (v : Transport) : (s.setTransport v).activeSlotCount = s.activeSlotCount := rfl
@[simp] theorem setTransport_table (v : Transport) : (s.setTransport v).table = s.table := rfl
@[simp] theorem setTransport_cursor (v : Transport) : (s.setTransport v).cursor = s.cursor := rfl
@[simp] theorem setTransport_fsm (v : Transport) : (s.setTransport v).fsm = s.fsm := rfl
@[simp] theorem setTransport_dir (v : Transport) : (s.setTransport v).dir = s.dir := rfl
@[simp] theorem setTransport_codec (v : Transport) : (s.setTransport v).codec = s.codec := rfl
@[simp] theorem setTransport_polling (v : Transport) : (s.setTransport v).polling = s.polling := rfl
@[simp] theorem setTransport_unit (v : Transport) : (s.setTransport v).unit = s.unit := rfl
@[simp] theorem setTransport_transport (v : Transport) : (s.setTransport v).transport = v := rfl
@[simp] theorem setTransport_env (v : Transport) : (s.setTransport v).env = s.env := rfl
@[simp] theorem setTransport_trace (v : Transport) : (s.setTransport v).trace = s.trace := rfl
@[simp] theorem setTransport_statuses (v : Transport) : (s.setTransport v).statuses = s.statuses := rfl
@[simp] theorem setTransport_params (v : Transport) : (s.setTransport v).params = s.params := rfl

/-! ### `setEnv` -/

@[simp] theorem setEnv_init (v : List EnvMove) : (s.setEnv v).init = s.init := rfl
@[simp] theorem setEnv_busId (v : List EnvMove) : (s.setEnv v).busId = s.busId := rfl
@[simp] theorem setEnv_activeSlotCount (v : List EnvMove) : (s.setEnv v).activeSlotCount = s.activeSlotCount := rfl
@[simp] theorem setEnv_table (v : List EnvMove) : (s.setEnv v).table = s.table := rfl
@[simp] theorem setEnv_cursor (v : List EnvMove) : (s.setEnv v).cursor = s.cursor := rfl
@[simp] theorem setEnv_fsm (v : List EnvMove) : (s.setEnv v).fsm = s.fsm := rfl
@[simp] theorem setEnv_dir (v : List EnvMove) : (s.setEnv v).dir = s.dir := rfl
@[simp] theorem setEnv_codec (v : List EnvMove) : (s.setEnv v).codec = s.codec := rfl
@[simp] theorem setEnv_polling (v : List EnvMove) : (s.setEnv v).polling = s.polling := rfl
@[simp] theorem setEnv_unit (v : List EnvMove) : (s.setEnv v).unit = s.unit := rfl
@[simp] theorem setEnv_transport (v : List EnvMove) : (s.setEnv v).transport = s.transport := rfl
@[simp] theorem setEnv_env (v : List EnvMove) : (s.setEnv v).env = v := rfl
@[simp] theorem setEnv_trace (v : List EnvMove) : (s.setEnv v).trace = s.trace := rfl
@[simp] theorem setEnv_statuses (v : List EnvMove) : (s.setEnv v).statuses = s.statuses := rfl
@[simp] theorem setEnv_params (v : List EnvMove) : (s.setEnv v).params = s.params := rfl

/-! ### `pushEvent` -/

@[simp] theorem pushEvent_init (v : Event) : (s.pushEvent v).init = s.init := rfl
@[simp] theorem pushEvent_busId (v : Event) : (s.pushEvent v).busId = s.busId := rfl
@[simp] theorem pushEvent_activeSlotCount (v : Event) : (s.pushEvent v).activeSlotCount = s.activeSlotCount := rfl
@[simp] theorem pushEvent_table (v : Event) : (s.pushEvent v).table = s.table := rfl
@[simp] theorem pushEvent_cursor (v : Event) : (s.pushEvent v).cursor = s.cursor := rfl
@[simp] theorem pushEvent_fsm (v : Event) : (s.pushEvent v).fsm = s.fsm := rfl
@[simp] theorem pushEvent_dir (v : Event) : (s.pushEvent v).dir = s.dir := rfl
@[simp] theorem pushEvent_codec (v : Event) : (s.pushEvent v).codec = s.codec := rfl
@[simp] theorem pushEvent_polling (v : Event) : (s.pushEvent v).polling = s.polling := rfl
@[simp] theorem pushEvent_unit (v : Event) : (s.pushEvent v).unit = s.unit := rfl
@[simp] theorem pushEvent_transport (v : Event) : (s.pushEvent v).transport = s.transport := rfl
@[simp] theorem pushEvent_env (v : Event) : (s.pushEvent v).env = s.env := rfl
@[simp] theorem pushEvent_trace (v : Event) : (s.pushEvent v).trace = s.trace ++ [v] := rfl
@[simp] theorem pushEvent_statuses (v : Event) : (s.pushEvent v).statuses = s.statuses := rfl
@[simp] theorem pushEvent_params (v : Event) : (s.pushEvent v).params = s.params := rfl

/-! ### `pushStatus` -/

@[simp] theorem pushStatus_init (v : Status) : (s.pushStatus v).init = s.init := rfl
@[simp] theorem pushStatus_busId (v : Status) : (s.pushStatus v).busId = s.busId := rfl
@[simp] theorem pushStatus_activeSlotCount (v : Status) : (s.pushStatus v).activeSlotCount = s.activeSlotCount := rfl
@[simp] theorem pushStatus_table (v : Status) : (s.pushStatus v).table = s.table := rfl
@[simp] theorem pushStatus_cursor (v : Status) : (s.pushStatus v).cursor = s.cursor := rfl
@[simp] theorem pushStatus_fsm (v : Status) : (s.pushStatus v).fsm = s.fsm := rfl
@[simp] theorem pushStatus_dir (v : Status) : (s.pushStatus v).dir = s.dir := rfl
@[simp] theorem pushStatus_codec (v : Status) : (s.pushStatus v).codec = s.codec := rfl
@[simp] theorem pushStatus_polling (v : Status) : (s.pushStatus v).polling = s.polling := rfl
@[simp] theorem pushStatus_unit (v : Status) : (s.pushStatus v).unit = s.unit := rfl
@[simp] theorem pushStatus_transport (v : Status) : (s.pushStatus v).transport = s.transport := rfl
@[simp] theorem pushStatus_env (v : Status) : (s.pushStatus v).env = s.env := rfl
@[simp] theorem pushStatus_trace (v : Status) : (s.pushStatus v).trace = s.trace := rfl
@[simp] theorem pushStatus_statuses (v : Status) : (s.pushStatus v).statuses = s.statuses ++ [v] := rfl
@[simp] theorem pushStatus_params (v : Status) : (s.pushStatus v).params = s.params := rfl

end Sys2Proof.Machine.State

namespace Sys2Proof.Machine

/-! ### The sensor table -/

theorem setTable_eq (s : State) (t : Table) : s.setTable t = { s with table := t } := rfl

@[simp] theorem writeEntry_length (slot : Byte) (e : SensorEntry) (s : State) :
    (writeEntry slot e s).table.length = s.table.length := by
  simp [writeEntry]

@[simp] theorem clearTable_length (s : State) : (clearTable s).table.length = s.table.length := by
  simp [clearTable, State.capacity]

@[simp] theorem resetBlock_length (s : State) : (resetBlock s).table.length = s.table.length := by
  simp [resetBlock, State.capacity]

/-- The form of the table depends on its length alone, so every operation that keeps the length keeps the form. -/
theorem Table.wf_of_length_eq {t u : Table} (h : t.length = u.length) (hu : u.wf = true) : t.wf = true := by
  simpa [Table.wf, h] using hu

theorem writeEntry_wf (slot : Byte) (e : SensorEntry) (s : State) (h : s.table.wf = true) :
    (writeEntry slot e s).table.wf = true :=
  Table.wf_of_length_eq (writeEntry_length slot e s) h

theorem clearTable_wf (s : State) (h : s.table.wf = true) : (clearTable s).table.wf = true :=
  Table.wf_of_length_eq (clearTable_length s) h

theorem resetBlock_wf (s : State) (h : s.table.wf = true) : (resetBlock s).table.wf = true :=
  Table.wf_of_length_eq (resetBlock_length s) h

theorem reset_table_wf : State.reset.table.wf = true := by decide

/-- A slot reads as the entry just written to it, if it exists. -/
theorem readEntry_writeEntry_same (slot : Byte) (e : SensorEntry) (s : State) (h : slot.toNat < s.table.length) :
    readEntry slot (writeEntry slot e s) = some e := by
  simp [readEntry, writeEntry, h]

/-- A write leaves every other slot alone. -/
theorem readEntry_writeEntry_other (slot other : Byte) (e : SensorEntry) (s : State) (h : other ≠ slot) :
    readEntry other (writeEntry slot e s) = readEntry other s := by
  have : slot.toNat ≠ other.toNat := fun e' => h (BitVec.eq_of_toNat_eq e'.symm)
  simp [readEntry, writeEntry, List.getElem?_set_ne this]

end Sys2Proof.Machine
end

