-- ==== Sys2Proof/Laws/Ops.lean ====
section
/-! SUPPORT. What each shared operation does, said once: the transport's calls, the bytes of a frame, and `encodeAndSend`. -/

namespace Sys2Proof.Machine

theorem writeByte_eq (b : Byte) (s : State) :
    writeByte b s = { s with
      transport := { s.transport with output := s.transport.output ++ [b] }
      trace := s.trace ++ [.wr b] } := rfl

/-- Writing bytes one by one queues them in order and records one `Wr` each. -/
theorem writeBytes_eq (bytes : List Byte) (s : State) :
    writeBytes bytes s = { s with
      transport := { s.transport with output := s.transport.output ++ bytes }
      trace := s.trace ++ bytes.map .wr } := by
  induction bytes generalizing s with
  | nil => simp [writeBytes]
  | cons b rest ih => simp [writeBytes, ih, writeByte_eq]

/-- A frame byte is sent as its wire bytes. -/
theorem sendByte_eq (b : Byte) (s : State) : sendByte b s = writeBytes (stuff b) s := by
  unfold sendByte stuff
  split <;> rfl

theorem writeBytes_append (xs ys : List Byte) (s : State) : writeBytes (xs ++ ys) s = writeBytes ys (writeBytes xs s) := by
  induction xs generalizing s with
  | nil => rfl
  | cons x rest ih => exact ih _

/-- Frame bytes are sent as their wire bytes, in order. -/
theorem sendBytes_eq (bytes : List Byte) (s : State) : sendBytes bytes s = writeBytes (bytes.flatMap stuff) s := by
  induction bytes generalizing s with
  | nil => rfl
  | cons b rest ih => rw [sendBytes, ih, sendByte_eq, List.flatMap_cons, writeBytes_append]

/-- Everything `encodeAndSend` does: the line turned and turned back, the wire frame written and transmitted, the transient state
released; every other field is unchanged. -/
theorem encodeAndSend_eq (type : Byte) (id : SensorId) (value : Value) (s : State) :
    encodeAndSend type id value s = { s with
      dir := .rx
      codec := Codec.reset
      transport := Transport.drained
        { s.transport with output := s.transport.output ++ wireFrame (sentFrame type id value) } s.params.transportEcho
      trace := s.trace ++ .dir .tx :: ((wireFrame (sentFrame type id value)).map .wr ++ [.fl, .dir .rx]) } := by
  simp only [encodeAndSend, sendBytes_eq, writeBytes_eq]
  simp [storeCrc, buildFrame, runCrc, setDirection, flush, releaseCodec, wireFrame, sentFrame, State.setCodec, State.setDir,
    State.pushEvent, State.setTransport]

/-- The read of a byte: it is taken from the front of the input, and the event is recorded. -/
theorem readByte_cons (s : State) (b : Byte) (rest : List Byte) (h : s.transport.input = b :: rest) :
    readByte s = some (b, { s with
      transport := { s.transport with input := rest }
      trace := s.trace ++ [.rd b] }) := by
  simp [readByte, h, State.setTransport, State.pushEvent]

theorem readByte_nil (s : State) (h : s.transport.input = []) : readByte s = none := by
  simp [readByte, h]

theorem available_eq (s : State) : available s = !s.transport.input.isEmpty := rfl

end Sys2Proof.Machine
end

