-- ==== Sys2Proof/Laws/Exec.lean ====
section
/-! SUPPORT. Everything an instruction can do when it answers a next state, said once. -/

namespace Sys2Proof.Machine

/-- What an instruction's execution from `s` can end in, one constructor per kind of effect. -/
inductive Effect (s : State) : Instr → State → Prop where
  | configured (busId n : Byte) (hi : s.init = false) (hn : n.toNat ≤ s.table.length) :
      Effect s (.initializeDevice busId n) { s with
        init := true
        busId := busId
        activeSlotCount := n
        table := List.replicate s.table.length SensorEntry.zero
        cursor := 0
        fsm := .idle
        statuses := s.statuses ++ [.ok] }
  | rejected (c : HostCall) (code : Status) (hc : code ≠ .ok) :
      Effect s (decodeHost c) { s with statuses := s.statuses ++ [code] }
  | written (slot : Byte) (id : SensorId) (value : Value) (hi : s.init = true) (hs : slot.toNat < s.table.length) :
      Effect s (.setSensorData slot id value) { s with
        table := s.table.set slot.toNat ⟨id, value⟩
        statuses := s.statuses ++ [.ok] }
  | returned (hi : s.init = true) (hf : s.fsm = .idle) (ha : s.transport.input = []) :
      Effect s .poll { s with polling := false, statuses := s.statuses ++ [.ok] }
  | entered (hi : s.init = true) : Effect s .poll { s with polling := true }
  | codec (i : Instr) (c : Codec) (hi : (∃ f, i = .computeCrc f) ∨ ∃ id v k, i = .frameSensorData id v k) :
      Effect s i { s with codec := c }
  | sent (type : Byte) (id : SensorId) (value : Value) :
      Effect s (.encodeAndSend type id value) (encodeAndSend type id value s)
  | marker (hf : s.fsm = .idle) : Effect s .rxMarker { s with fsm := .awaitingId }
  | discarded (b : Byte) (hf : s.fsm = .idle) (hb : b ≠ Config.marker) : Effect s (.rxDiscard b) s
  | replied (e : SensorEntry) (hf : s.fsm = .awaitingId) (hn : s.activeSlotCount ≠ 0) (he : readEntry s.cursor s = some e) :
      Effect s (.rxIdReply s.busId) ((reply e s).setFsm .idle)
  | ignored (i : Instr) (b : Byte) (hf : s.fsm = .awaitingId)
      (hi : (i = .rxIdNoslot b ∧ b = s.busId ∧ s.activeSlotCount = 0) ∨ (i = .rxIdMismatch b ∧ b ≠ s.busId)) :
      Effect s i { s with fsm := .idle }
  | output (b : Byte) : Effect s (decodeTxByte b) (writeBytes (stuff b) s)

theorem execInitialize_effect (busId n : Byte) (s t : State) (h : execInitialize busId n s = .next t) :
    Effect s (.initializeDevice busId n) t := by
  unfold execInitialize checkInitialize at h
  by_cases hi : s.init = true
  · simp only [hi, if_true] at h
    cases h
    exact .rejected (.initializeDevice busId n) .rejAlreadyInit (by decide)
  · by_cases hn : s.capacity < n.toNat
    · simp only [hi, hn, if_true] at h
      cases h
      exact .rejected (.initializeDevice busId n) .rejBadCount (by decide)
    · simp only [hi, hn] at h
      cases h
      exact .configured busId n (by simpa using hi) (by simpa [State.capacity] using hn)

theorem execSetSensorData_effect (slot : Byte) (id : SensorId) (value : Value) (s t : State)
    (h : execSetSensorData slot id value s = .next t) : Effect s (.setSensorData slot id value) t := by
  unfold execSetSensorData checkSetSensorData at h
  by_cases hi : s.init = true
  · by_cases hs : s.capacity ≤ slot.toNat
    · simp only [hi, hs, Bool.not_true, if_true] at h
      cases h
      exact .rejected (.setSensorData slot id value) .rejBadSlot (by decide)
    · simp only [hi, hs, Bool.not_true] at h
      cases h
      exact .written slot id value hi (by simpa [State.capacity] using hs)
  · simp only [hi, Bool.not_false, if_true] at h
    cases h
    exact .rejected (.setSensorData slot id value) .rejNotInit (by decide)

theorem execPoll_effect (s t : State) (h : execPoll s = .next t) : Effect s .poll t := by
  unfold execPoll checkPoll at h
  by_cases hi : s.init = true
  · simp only [hi, if_true] at h
    split at h
    · rename_i hw
      cases h
      exact .returned hi hw.1 (by simpa [available] using hw.2)
    · cases h
      exact .entered hi
  · simp only [hi] at h
    cases h
    exact .rejected .poll .rejNotInit (by decide)

theorem execRxIdReply_effect (b : Byte) (s t : State) (h : execRxIdReply b s = .next t) : Effect s (.rxIdReply b) t := by
  unfold execRxIdReply at h
  split at h
  · rename_i hc
    obtain ⟨hf, rfl, hn⟩ := hc
    split at h
    · cases h
      exact .replied _ hf hn ‹_›
    · cases h
  · cases h

theorem execTxLiteral_effect (b : Byte) (s t : State) (h : execTxLiteral b s = .next t) : Effect s (.txLiteral b) t := by
  unfold execTxLiteral at h
  split at h
  · cases h
  · rename_i hb
    cases h
    have hi : decodeTxByte b = .txLiteral b := by
      rw [not_or] at hb
      rw [decodeTxByte, if_neg hb.1, if_neg hb.2]
    have hw : writeBytes (stuff b) s = writeByte b s := by
      rw [stuff, if_neg hb]
      rfl
    exact hw ▸ hi ▸ .output b

/-- Every instruction that answers a next state has one of the effects. -/
theorem exec_effect (i : Instr) (s t : State) (h : exec i s = .next t) : Effect s i t := by
  cases i with
  | initializeDevice busId n => exact execInitialize_effect busId n s t h
  | setSensorData slot id value => exact execSetSensorData_effect slot id value s t h
  | poll => exact execPoll_effect s t h
  | computeCrc c =>
    cases h
    exact .codec _ _ (.inl ⟨c, rfl⟩)
  | encodeAndSend type id value =>
    cases h
    exact .sent type id value
  | rxMarker =>
    simp only [exec, execRxMarker] at h
    split at h
    · cases h
      exact .marker ‹_›
    · cases h
  | rxDiscard b =>
    simp only [exec, execRxDiscard] at h
    split at h
    · rename_i hc
      cases h
      exact .discarded b hc.1 hc.2
    · cases h
  | rxIdReply b => exact execRxIdReply_effect b s t h
  | rxIdNoslot b =>
    simp only [exec, execRxIdNoslot] at h
    split at h
    · rename_i hc
      cases h
      exact .ignored _ b hc.1 (.inl ⟨rfl, hc.2⟩)
    · cases h
  | rxIdMismatch b =>
    simp only [exec, execRxIdMismatch] at h
    split at h
    · rename_i hc
      cases h
      exact .ignored _ b hc.1 (.inr ⟨rfl, hc.2⟩)
    · cases h
  | txLiteral b => exact execTxLiteral_effect b s t h
  | txEsc7e =>
    cases h
    exact .output 0x7E
  | txEsc7d =>
    cases h
    exact .output 0x7D
  | frameSensorData id value crc =>
    cases h
    exact .codec _ _ (.inr ⟨id, value, crc, rfl⟩)

end Sys2Proof.Machine
end

