-- ==== Sys2Proof/Laws/Step.lean ====
section
/-! SUPPORT. What one step can do, said once: the block's move, and the step by the kind of move. -/

namespace Sys2Proof.Machine

theorem fetchInput_cons (s : State) (b : Byte) (rest : List Byte) (h : s.transport.input = b :: rest) :
    fetchInput s = some (decodeRxByte s.rxContext b, { s with
      transport := { s.transport with input := rest }
      trace := s.trace ++ [.rd b] }) := by
  simp [fetchInput, h, decodeRx, readByte_cons s b rest h]

theorem fetchInput_nil (s : State) (h : s.transport.input = []) : fetchInput s = none := by
  simp [fetchInput, h, decodeRx]

/-- The block's move with a `poll` in progress and a byte available: the RX row of the byte. -/
theorem blockMove_cons (s : State) (b : Byte) (rest : List Byte) (hp : s.polling = true)
    (h : s.transport.input = b :: rest) :
    blockMove s = .run (decodeRxByte s.rxContext b) { s with
      transport := { s.transport with input := rest }
      trace := s.trace ++ [.rd b] } := by
  simp [blockMove, hp, fetchInput_cons s b rest h]

/-- The block's move with a `poll` in progress and no byte available: the return, or the hold. -/
theorem blockMove_nil (s : State) (hp : s.polling = true) (h : s.transport.input = []) :
    blockMove s = .quiet (if s.fsm = .idle then pollReturn s else s) := by
  simp only [blockMove, hp, fetchInput_nil s h, if_true]
  split <;> rfl

theorem blockMove_ready (s : State) (hp : s.polling = false) : blockMove s = .quiet s := by
  simp [blockMove, hp]

/-- Every move of the block is one of three. -/
theorem blockMove_cases (s : State) :
    (s.polling = false ∧ blockMove s = .quiet s) ∨
    (s.polling = true ∧ s.transport.input = [] ∧ blockMove s = .quiet (if s.fsm = .idle then pollReturn s else s)) ∨
    (∃ b rest, s.polling = true ∧ s.transport.input = b :: rest ∧
      blockMove s = .run (decodeRxByte s.rxContext b) { s with
        transport := { s.transport with input := rest }
        trace := s.trace ++ [.rd b] }) := by
  by_cases hp : s.polling = true
  · rcases h : s.transport.input with _ | ⟨b, rest⟩
    · exact .inr (.inl ⟨hp, rfl, blockMove_nil s hp h⟩)
    · exact .inr (.inr ⟨b, rest, hp, rfl, blockMove_cons s b rest hp h⟩)
  · exact .inl ⟨by simpa using hp, blockMove_ready s (by simpa using hp)⟩

/-- Where the turn is the block's, the next move is its own, in the state with the schedule moved on. -/
theorem nextMove_blockTurn (s : State) (env : List EnvMove) (hu : s.unit = none) (hp : s.polling = true)
    (hh : holding s = false) (ht : Safety.BlockTurn s.env env) : nextMove s = blockMove (s.setEnv env) := by
  have hw : waiting s = false := by simp [waiting, hp, hh]
  have same : ∀ e, s.env = e → s.setEnv e = s := fun e h => by
    rw [← h]
    rfl
  rcases ht with ⟨h, rfl⟩ | h | ⟨c, rest, h, rfl⟩ | ⟨bytes, rest, h, rfl⟩ | ⟨rest, h, rfl⟩
  · rw [same _ h]
    simp only [nextMove, hu, h]
  · simp only [nextMove, hu, h]
  · rw [same _ rfl]
    simp only [nextMove, hu, h, hp, if_true]
  · rw [same _ rfl]
    simp only [nextMove, hu, h, hw]
    rfl
  · rw [same _ rfl]
    simp only [nextMove, hu, h, hp, hh, if_true]
    rfl

theorem step_run (s t : State) (i : Instr) (h : nextMove s = .run i t) : step s = exec i t := by
  simp [step, h]

theorem step_quiet (s t : State) (h : nextMove s = .quiet t) : step s = .next t := by
  simp [step, h]

/-- A step that answers a next state is an instruction's execution or a quiet move. -/
theorem step_next_cases (s t : State) (h : step s = .next t) :
    (∃ i u, nextMove s = .run i u ∧ exec i u = .next t) ∨ nextMove s = .quiet t := by
  unfold step at h
  split at h
  · exact .inl ⟨_, _, ‹_›, h⟩
  · right
    injection h with h
    exact h ▸ ‹_›
  · cases h

end Sys2Proof.Machine
end

