-- ==== Sys2Proof/Laws/Moves.lean ====
section
/-! SUPPORT. Everything one step can do when it answers a next state, said once. -/

namespace Sys2Proof.Machine

/-- The schedule after a move of the block: unchanged, or a `wait` used up. -/
def EnvAfterBlock (s : State) (env : List EnvMove) : Prop := env = s.env ∨ s.env = .wait :: env

/-- What one step from `s` can end in. -/
inductive Stepped (s : State) : State → Prop where
  | unit (u : UnitCall) (i : Instr) (t : State) (hu : s.unit = some u) (hd : decodeUnit u = .ok i)
      (he : Effect (s.setUnit none) i t) : Stepped s t
  | call (c : HostCall) (rest : List EnvMove) (t : State) (hu : s.unit = none) (hp : s.polling = false)
      (hv : s.env = .call c :: rest) (he : Effect (s.setEnv rest) (decodeHost c) t) : Stepped s t
  | input (b : Byte) (rest : List Byte) (env : List EnvMove) (t : State) (hu : s.unit = none) (hp : s.polling = true)
      (hb : s.transport.input = b :: rest) (hv : EnvAfterBlock s env)
      (he : Effect { s with
        env := env
        transport := { s.transport with input := rest }
        trace := s.trace ++ [.rd b] } (decodeRxByte s.rxContext b) t) : Stepped s t
  | returned (env : List EnvMove) (hu : s.unit = none) (hp : s.polling = true) (hb : s.transport.input = [])
      (hf : s.fsm = .idle) (hv : EnvAfterBlock s env) :
      Stepped s { s with env := env, polling := false, statuses := s.statuses ++ [.ok] }
  | held (env : List EnvMove) (hu : s.unit = none)
      (hw : s.polling = false ∨ s.polling = true ∧ s.transport.input = [] ∧ s.fsm = .awaitingId)
      (hv : EnvAfterBlock s env ∨ s.env = .abandon :: env) :
      Stepped s { s with env := env }
  | arrived (bytes : List Byte) (rest : List EnvMove) (hu : s.unit = none)
      (hv : s.env = .rx bytes :: rest ∨ s.env = .rxNow bytes :: rest) :
      Stepped s { s with env := rest, transport := { s.transport with input := s.transport.input ++ bytes } }
  | echoed (n : Nat) (rest : List EnvMove) (hu : s.unit = none) (hv : s.env = .echo n :: rest) :
      Stepped s { s with
        env := rest
        transport := { s.transport with
          input := s.transport.input ++ s.transport.echo.take n
          echo := s.transport.echo.drop n } }
  | abandoned (rest : List EnvMove) (hu : s.unit = none) (hh : holding s = true) (ha : s.params.idWaitAbandon = true)
      (hv : s.env = .abandon :: rest) : Stepped s { s with env := rest, fsm := .idle }
  | reset (rest : List EnvMove) (hu : s.unit = none) (hv : s.env = .reset :: rest) : Stepped s (resetBlock (s.setEnv rest))

/-- The block's own move, from `s` with its schedule moved on to `env`. -/
theorem blockMove_stepped (s t : State) (env : List EnvMove) (hu : s.unit = none) (hv : EnvAfterBlock s env)
    (h : (∃ i u, blockMove (s.setEnv env) = .run i u ∧ exec i u = .next t) ∨ blockMove (s.setEnv env) = .quiet t) :
    Stepped s t := by
  rcases blockMove_cases (s.setEnv env) with ⟨hp, hm⟩ | ⟨hp, hb, hm⟩ | ⟨b, rest, hp, hb, hm⟩ <;> rw [hm] at h
  · rcases h with ⟨i, u, h, -⟩ | h <;> cases h
    exact .held env hu (.inl hp) (.inl hv)
  · rcases h with ⟨i, u, h, -⟩ | h <;> cases h
    by_cases hf : s.fsm = .idle
    · rw [State.setEnv_fsm, if_pos hf]
      exact .returned env hu hp hb hf hv
    · rw [State.setEnv_fsm, if_neg hf]
      exact .held env hu (.inr ⟨hp, hb, by cases hs : s.fsm <;> simp_all⟩) (.inl hv)
  · rcases h with ⟨i, u, h, he⟩ | h <;> cases h
    exact .input b rest env t hu hp hb hv (exec_effect _ _ _ he)

theorem step_stepped (s t : State) (h : step s = .next t) : Stepped s t := by
  have h := step_next_cases s t h
  have stay : s.unit = none →
      ((∃ i u, blockMove s = .run i u ∧ exec i u = .next t) ∨ blockMove s = .quiet t) → Stepped s t :=
    fun hu h => blockMove_stepped s t s.env hu (.inl rfl) h
  rcases hu : s.unit with _ | u
  · simp only [nextMove, hu] at h
    rcases hv : s.env with _ | ⟨m, rest⟩
    · rw [hv] at h
      exact stay hu h
    · rw [hv] at h
      cases m with
      | call c =>
        by_cases hp : s.polling = true
        · simp only [hp, if_true] at h
          exact stay hu h
        · simp only [hp] at h
          rcases h with ⟨i, u, h, he⟩ | h <;> cases h
          exact .call c rest t hu (by simpa using hp) hv (exec_effect _ _ _ he)
      | rx bytes =>
        by_cases hw : waiting s = true
        · simp only [hw, if_true] at h
          rcases h with ⟨i, u, h, -⟩ | h <;> cases h
          exact .arrived bytes rest hu (.inl hv)
        · simp only [hw] at h
          exact stay hu h
      | rxNow bytes =>
        rcases h with ⟨i, u, h, -⟩ | h <;> cases h
        exact .arrived bytes rest hu (.inr hv)
      | wait => exact blockMove_stepped s t rest hu (.inr hv) h
      | echo n =>
        rcases h with ⟨i, u, h, -⟩ | h <;> cases h
        exact .echoed n rest hu hv
      | abandon =>
        by_cases hh : holding s = true
        · simp only [hh, if_true] at h
          rcases h with ⟨i, u, h, -⟩ | h <;> cases h
          have hh' := hh
          simp only [holding, available, Bool.and_eq_true, beq_iff_eq] at hh'
          by_cases ha : s.params.idWaitAbandon = true
          · have : abandonWait (s.setEnv rest) = { s with env := rest, fsm := .idle } := by
              simp only [abandonWait, State.setEnv_params, ha, if_true]
              rfl
            exact this ▸ .abandoned rest hu hh ha hv
          · have : abandonWait (s.setEnv rest) = { s with env := rest } := by
              simp only [abandonWait, State.setEnv_params, ha]
              rfl
            exact this ▸ .held rest hu (.inr ⟨hh'.1.1, by simpa using hh'.2, hh'.1.2⟩) (.inr hv)
        · by_cases hp : s.polling = true
          · simp only [hh, hp, if_true] at h
            exact stay hu h
          · simp only [hh, hp] at h
            rcases h with ⟨i, u, h, -⟩ | h <;> cases h
            exact .held rest hu (.inl (by simpa using hp)) (.inr hv)
      | reset =>
        rcases h with ⟨i, u, h, -⟩ | h <;> cases h
        exact .reset rest hu hv
  · simp only [nextMove, hu] at h
    cases hd : decodeUnit u with
    | error e =>
      simp only [hd] at h
      rcases h with ⟨i, u, h, -⟩ | h <;> cases h
    | ok i =>
      simp only [hd] at h
      rcases h with ⟨j, v, h, he⟩ | h <;> cases h
      exact .unit u i t hu hd (exec_effect _ _ _ he)

end Sys2Proof.Machine
end

