-- ==== Sys2Proof/Laws/PerInstr.lean ====
section
/-! SUPPORT. The statements made of every instruction, one lemma per constructor. -/

namespace Sys2Proof.Laws.EncodedFormat

/-- The format in which something to be decoded is presented (30_encoding.md section 2). -/
def formatOf : Encoded → Format
  | .host _ => .host
  | .unit (.computeCrc _) => .internal
  | .unit (.encodeAndSend _ _ _) => .internal
  | .unit (.txByte _) => .tx
  | .unit (.frame _) => .frame
  | .rx _ _ => .rx

/-- An instruction's encoding is presented in the format of its row of the opcode table, in every context. -/
def Statement (i : Instr) : Prop := ∀ ctx : RxContext, formatOf (encode ctx i) = i.format

theorem initializeDevice (busId n : Byte) : Statement (.initializeDevice busId n) := fun _ => rfl
theorem setSensorData (slot : Byte) (id : SensorId) (value : Value) : Statement (.setSensorData slot id value) := fun _ => rfl
theorem poll : Statement .poll := fun _ => rfl
theorem computeCrc (c : Frame) : Statement (.computeCrc c) := fun _ => rfl
theorem encodeAndSend (type : Byte) (id : SensorId) (value : Value) : Statement (.encodeAndSend type id value) := fun _ => rfl
theorem rxMarker : Statement .rxMarker := fun _ => rfl
theorem rxDiscard (b : Byte) : Statement (.rxDiscard b) := fun _ => rfl
theorem rxIdReply (b : Byte) : Statement (.rxIdReply b) := fun _ => rfl
theorem rxIdNoslot (b : Byte) : Statement (.rxIdNoslot b) := fun _ => rfl
theorem rxIdMismatch (b : Byte) : Statement (.rxIdMismatch b) := fun _ => rfl
theorem txLiteral (b : Byte) : Statement (.txLiteral b) := fun _ => rfl
theorem txEsc7e : Statement .txEsc7e := fun _ => rfl
theorem txEsc7d : Statement .txEsc7d := fun _ => rfl
theorem frameSensorData (id : SensorId) (value : Value) (crc : Byte) : Statement (.frameSensorData id value crc) := fun _ => rfl

end Sys2Proof.Laws.EncodedFormat
end

