-- ==== Sys2Proof/Laws/Run.lean ====
section
/-! SUPPORT. How a run of several steps unfolds. -/

namespace Sys2Proof.Machine

/-- A run of one step more, for any machine. -/
theorem run_succ_of (M : Host.Core) (k : Nat) (s t : M.State) (h : M.step s = .next t) : M.run (k + 1) s = M.run k t := by
  simp only [Host.Core.run, h]

/-- A run after a run, for any machine. -/
theorem run_add_of (M : Host.Core) (a b : Nat) (s t : M.State) (h : M.run a s = .next t) : M.run (a + b) s = M.run b t := by
  induction a generalizing s with
  | zero =>
    simp only [Host.Core.run, Host.Outcome.next.injEq] at h
    rw [h, Nat.zero_add]
  | succ a ih =>
    rw [Nat.add_right_comm]
    simp only [Host.Core.run] at h ⊢
    cases hs : M.step s with
    | next u =>
      simp only [hs] at h ⊢
      exact ih u h
    | fault r => simp [hs] at h
    | refused r => simp [hs] at h

theorem run_zero (s : State) : Sys2Proof.core.run 0 s = .next s := rfl

theorem run_succ (k : Nat) (s t : State) (h : step s = .next t) : Sys2Proof.core.run (k + 1) s = Sys2Proof.core.run k t :=
  run_succ_of Sys2Proof.core k s t h

theorem run_add (a b : Nat) (s t : State) (h : Sys2Proof.core.run a s = .next t) :
    Sys2Proof.core.run (a + b) s = Sys2Proof.core.run b t :=
  run_add_of Sys2Proof.core a b s t h

end Sys2Proof.Machine
end

