-- ==== Sys2Proof/Tests/Slice0.lean ====
section
/-! SUPPORT. Tests: ill-formed terms that the checks refuse, words written out from the spec's encodings, one small step per
instruction with its result from 95_test_vectors.md, and for every statement with hypotheses a state that meets them. -/

namespace Sys2Proof.Tests

open Sys2Proof Sys2Proof.Machine Sys2Proof.Safety

/-! ### Small states -/

/-- After `init busId, count` from reset with `CAPACITY` 8, in `AwaitingId` or `Idle`, with a `poll` in progress. -/
def polled (busId count cursor : Byte) (fsm : Fsm) (input : List Byte) : State :=
  { State.reset with
    init := true
    busId := busId
    activeSlotCount := count
    cursor := cursor
    fsm := fsm
    polling := true
    transport := { Transport.empty with input := input } }

/-- After `init busId, count` from reset, between host transactions, with these moves to come. -/
def ready (busId count : Byte) (env : List EnvMove) : State :=
  { State.reset with init := true, busId := busId, activeSlotCount := count, env := env }

/-- One field of the next state; none where the step stops. -/
def after {α : Type} (f : State → α) : Host.Outcome State Fault Refusal → Option α
  | .next s => some (f s)
  | .fault _ => none
  | .refused _ => none

/-! ### Well-formedness refuses each ill-formed term -/

theorem test_illformed_rxDiscard_marker : (Instr.rxDiscard 0x7E).wellFormed = false := by decide
theorem test_illformed_txLiteral_marker : (Instr.txLiteral 0x7E).wellFormed = false := by decide
theorem test_illformed_txLiteral_esc : (Instr.txLiteral 0x7D).wellFormed = false := by decide
theorem test_misfit_rxMarker : Instr.rxMarker.fits ⟨.awaitingId, 5, 1⟩ = false := by decide
theorem test_misfit_rxDiscard : (Instr.rxDiscard 5).fits ⟨.awaitingId, 5, 1⟩ = false := by decide
theorem test_misfit_rxIdReply_count : (Instr.rxIdReply 5).fits ⟨.awaitingId, 5, 0⟩ = false := by decide
theorem test_misfit_rxIdNoslot_count : (Instr.rxIdNoslot 5).fits ⟨.awaitingId, 5, 1⟩ = false := by decide
theorem test_misfit_rxIdMismatch_id : (Instr.rxIdMismatch 5).fits ⟨.awaitingId, 5, 1⟩ = false := by decide
theorem test_contract_count : (Instr.initializeDevice 5 9).keepsContract 8 = false := by decide
theorem test_contract_slot : (Instr.setSensorData 8 0 0).keepsContract 8 = false := by decide
theorem test_contract_crc : (Instr.computeCrc 0x0100000000000000).keepsContract 8 = false := by decide

/-! ### Decoding words written out from the spec

RX and TX rows are one byte (30_encoding.md R56, R61); a frame is written with byte 7 first, as its 64 bits (R50). -/

theorem test_decode_initialize : decode (.host (.initializeDevice 0x05 0x03)) = .ok (.initializeDevice 0x05 0x03, []) := by decide
theorem test_decode_setSensorData :
    decode (.host (.setSensorData 0x07 0x0400 0xFFFE1DC0)) = .ok (.setSensorData 0x07 0x0400 0xFFFE1DC0, []) := by decide
theorem test_decode_poll : decode (.host .poll) = .ok (.poll, []) := by decide
theorem test_decode_computeCrc :
    decode (.unit (.computeCrc 0x000000002A010010)) = .ok (.computeCrc 0x000000002A010010, []) := by decide
theorem test_decode_encodeAndSend :
    decode (.unit (.encodeAndSend 0x10 0x0100 0x2A)) = .ok (.encodeAndSend 0x10 0x0100 0x2A, []) := by decide
theorem test_decode_rxMarker : decode (.rx ⟨.idle, 5, 1⟩ [0b01111110]) = .ok (.rxMarker, []) := by decide
theorem test_decode_rxDiscard : decode (.rx ⟨.idle, 5, 1⟩ [0b01111101]) = .ok (.rxDiscard 0x7D, []) := by decide
theorem test_decode_rxIdReply : decode (.rx ⟨.awaitingId, 5, 1⟩ [0b00000101]) = .ok (.rxIdReply 0x05, []) := by decide
theorem test_decode_rxIdNoslot : decode (.rx ⟨.awaitingId, 5, 0⟩ [0b00000101]) = .ok (.rxIdNoslot 0x05, []) := by decide
theorem test_decode_rxIdMismatch :
    decode (.rx ⟨.awaitingId, 5, 1⟩ [0b01111110]) = .ok (.rxIdMismatch 0x7E, []) := by decide
theorem test_decode_txLiteral : decode (.unit (.txByte 0b01111111)) = .ok (.txLiteral 0x7F, []) := by decide
theorem test_decode_txEsc7e : decode (.unit (.txByte 0b01111110)) = .ok (.txEsc7e, []) := by decide
theorem test_decode_txEsc7d : decode (.unit (.txByte 0b01111101)) = .ok (.txEsc7d, []) := by decide
/-- Vector F19: `10 01 F1 78 56 34 12 E7`. -/
theorem test_decode_frame :
    decode (.unit (.frame (0xE7#8 ++ 0x12#8 ++ 0x34#8 ++ 0x56#8 ++ 0x78#8 ++ 0xF1#8 ++ 0x01#8 ++ 0x10#8))) =
      .ok (.frameSensorData 0xF101 0x12345678 0xE7, []) := by decide
/-- A frame of another type is no row of the table (R53). -/
theorem test_decode_frame_type :
    decode (.unit (.frame 0x8100000000000000)) = .error (.notSensorDataFrame 0x00) := by decide
theorem test_decode_no_input : decode (.rx ⟨.idle, 5, 1⟩ []) = .error .noInputByte := by decide
theorem test_decode_short_frame : decodeFrame [0x10, 0x00] = .error .shortFrame := by decide

/-! ### Table words, and the first step from reset -/

theorem test_tableWord_marker : decodeTableWord 8 0x7E = some .rxMarker := by decide
theorem test_tableWord_esc : decodeTableWord 8 0x7D = some .txEsc7d := by decide
theorem test_tableWord_other : decodeTableWord 8 0x05 = some (.rxDiscard 0x05) := by decide
theorem test_tableWord_frame : decodeTableWord 64 0xC40000002A010010 = some (.frameSensorData 0x0100 0x2A 0xC4) := by decide
theorem test_withFetchWord_marker : after State.fsm (step (State.reset.withFetchWord 8 0x7E)) = some .awaitingId := by decide
theorem test_withFetchWord_esc :
    after State.trace (step (State.reset.withFetchWord 8 0x7D)) = some [.wr 0x7D, .wr 0x5D] := by decide
theorem test_withFetchWord_frame :
    after (fun s => s.codec.frame) (step (State.reset.withFetchWord 64 0xC40000002A010010)) = some 0xC40000002A010010 := by
  decide

/-! ### One small step per instruction -/

/-- Vector I1. -/
theorem test_initialize_ok :
    after (fun s => (s.init, s.busId, s.activeSlotCount, s.statuses)) (exec (.initializeDevice 5 3) State.reset) =
      some (true, 0x05, 3, [.ok]) := by decide
/-- Vector I4. -/
theorem test_initialize_count :
    after (fun s => (s.init, s.statuses)) (exec (.initializeDevice 5 9) State.reset) = some (false, [.rejBadCount]) := by decide
/-- Vector T3. -/
theorem test_setSensorData_ok :
    after (fun s => (s.table[7]?, s.statuses)) (exec (.setSensorData 7 0x0400 0xFFFE1DC0) (ready 5 8 [])) =
      some (some ⟨0x0400, 0xFFFE1DC0⟩, [.ok]) := by decide
/-- Vector T4. -/
theorem test_setSensorData_slot :
    after (fun s => (s.table, s.statuses)) (exec (.setSensorData 8 0x0400 5) (ready 5 8 [])) =
      some (State.reset.table, [.rejBadSlot]) := by decide
/-- Vector Q2. -/
theorem test_poll_empty : after (fun s => (s.polling, s.statuses)) (exec .poll (ready 5 1 [])) = some (false, [.ok]) := by decide
/-- Vector Q1. -/
theorem test_poll_not_init : after State.statuses (exec .poll State.reset) = some [.rejNotInit] := by decide
/-- Vector K2. -/
theorem test_computeCrc_example :
    after (fun s => (s.codec.acc, s.codec.crcOut)) (exec (.computeCrc 0x000000002A010010) State.reset) =
      some (0x3B, 0xC4) := by decide
/-- Vector K4: a carry out of bit 7. -/
theorem test_computeCrc_carry :
    after (fun s => s.codec.crcOut) (exec (.computeCrc 0x00000000000001FF) State.reset) = some 0xFE := by decide
/-- Vector F5: a stuffed checksum. -/
theorem test_encodeAndSend_stuffed :
    after State.trace (exec (.encodeAndSend 0x10 0x0071 0) State.reset) =
      some [.dir .tx, .wr 0x10, .wr 0x71, .wr 0x00, .wr 0x00, .wr 0x00, .wr 0x00, .wr 0x00, .wr 0x7D, .wr 0x5E, .fl,
        .dir .rx] := by decide
/-- Vector F17: a negative value. -/
theorem test_encodeAndSend_negative : frameBytes (sentFrame 0x10 0x0400 0xFFFE1DC0) =
    [0x10, 0x00, 0x04, 0xC0, 0x1D, 0xFE, 0xFF, 0x0F] := by decide
/-- Vector M1. -/
theorem test_rxMarker : after State.fsm (step (polled 5 1 0 .idle [0x7E])) = some .awaitingId := by decide
/-- Vector M3. -/
theorem test_rxDiscard :
    after (fun s => (s.fsm, s.trace)) (step (polled 5 1 0 .idle [0x7D])) = some (.idle, [.rd 0x7D]) := by decide
/-- Vector M5: the cursor wraps. -/
theorem test_rxIdReply_wraps :
    after (fun s => (s.fsm, s.cursor)) (step (polled 5 3 2 .awaitingId [0x05])) = some (.idle, 0) := by decide
/-- Vector M9: the marker is an ID byte; F2 is what is sent. -/
theorem test_rxIdReply_marker :
    after (fun s => writtenBytes s.trace) (step (polled 0x7E 1 0 .awaitingId [0x7E])) =
      some [0x10, 0x00, 0x00, 0x00, 0x00, 0x00, 0x00, 0xEF] := by decide
/-- Vector M6. -/
theorem test_rxIdNoslot :
    after (fun s => (s.fsm, s.trace)) (step (polled 5 0 0 .awaitingId [0x05])) = some (.idle, [.rd 0x05]) := by decide
/-- Vector M8. -/
theorem test_rxIdMismatch_marker :
    after (fun s => (s.fsm, s.trace)) (step (polled 5 1 0 .awaitingId [0x7E])) = some (.idle, [.rd 0x7E]) := by decide
theorem test_txLiteral : after State.trace (exec (.txLiteral 0x7F) State.reset) = some [.wr 0x7F] := by decide
theorem test_txEsc7e : after State.trace (exec .txEsc7e State.reset) = some [.wr 0x7D, .wr 0x5E] := by decide
theorem test_txEsc7d : after State.trace (exec .txEsc7d State.reset) = some [.wr 0x7D, .wr 0x5D] := by decide
theorem test_frameSensorData :
    after (fun s => frameBytes s.codec.frame) (exec (.frameSensorData 0xF101 0x12345678 0xE7) State.reset) =
      some [0x10, 0x01, 0xF1, 0x78, 0x56, 0x34, 0x12, 0xE7] := by decide
/-- Vector M12. -/
theorem test_abandon :
    after State.fsm (step { polled 5 1 0 .awaitingId [] with
      env := [.abandon], params := { idWaitAbandon := true, transportEcho := false } }) = some .idle := by decide
/-- Vector D2. -/
theorem test_destuff :
    destuff [0x10, 0x7D, 0x5D, 0x7D, 0x5E, 0x7D, 0x5D, 0x7D, 0x5E, 0x7D, 0x5D, 0x7D, 0x5E, 0xFB] =
      some [0x10, 0x7D, 0x7E, 0x7D, 0x7E, 0x7D, 0x7E, 0xFB] := by decide

/-! ### For every statement with hypotheses, a state and operands that meet them, clause by clause -/

/-- A `poll` in progress, in `Idle`, with a poll of the receiver to read. -/
theorem inv_polled : Inv (polled 5 1 0 .idle [0x7E, 0x05]) := by constructor <;> decide
/-- A `poll` in the hold. -/
theorem inv_holding : Inv (polled 5 1 0 .awaitingId []) := by constructor <;> decide
/-- Between host transactions, at the largest count. -/
theorem inv_ready (env : List EnvMove) : Inv (ready 5 8 env) := by
  constructor <;> simp [ready, State.reset, State.resetFor, Table.wf, Transport.empty, Config.minCapacity, Config.maxCapacity,
    Config.defaultCapacity]
/-- Right after reset, at the least capacity. -/
theorem inv_reset_least : Inv (State.resetFor 1 ⟨true, true⟩) := by constructor <;> decide

theorem witness_ResetPutsEveryFieldAtItsValue :
    (ready 5 1 [.reset]).unit = none ∧ (ready 5 1 [.reset]).env = [.reset] ∧ State.reset.init = false := by decide
theorem witness_InitializeConfiguresOrRejects :
    (State.reset.init = false ∧ (8 : Byte).toNat ≤ State.reset.table.length) ∧ (ready 5 1 []).init = true ∧
      (State.reset.init = false ∧ State.reset.table.length < (9 : Byte).toNat) := by decide
theorem witness_SetSensorDataWritesOneEntryOrRejects :
    ((ready 5 8 []).init = true ∧ (7 : Byte).toNat < (ready 5 8 []).table.length) ∧ State.reset.init = false ∧
      ((ready 5 8 []).init = true ∧ (ready 5 8 []).table.length ≤ (8 : Byte).toNat) := by decide
theorem witness_SetSensorDataChangesOneSlotOnly :
    (ready 5 8 []).init = true ∧ (7 : Byte).toNat < (ready 5 8 []).table.length ∧ (6 : Byte) ≠ 7 := by decide
theorem witness_PollFollowsItsLoop :
    State.reset.init = false ∧
      ((ready 5 1 []).init = true ∧ (ready 5 1 []).fsm = .idle ∧ (ready 5 1 []).transport.input = []) ∧
      ((polled 5 1 0 .idle [0x7E]).init = true ∧ (polled 5 1 0 .idle [0x7E]).transport.input ≠ []) ∧
      ((polled 5 1 0 .idle []).unit = none ∧ (polled 5 1 0 .idle []).env = [] ∧ (polled 5 1 0 .idle []).polling = true ∧
        (polled 5 1 0 .idle []).fsm = .idle ∧ (polled 5 1 0 .idle []).transport.input = []) ∧
      ((polled 5 1 0 .awaitingId []).unit = none ∧ (polled 5 1 0 .awaitingId []).env = [] ∧
        (polled 5 1 0 .awaitingId []).polling = true ∧ (polled 5 1 0 .awaitingId []).fsm = .awaitingId ∧
        (polled 5 1 0 .awaitingId []).transport.input = []) ∧
      (polled 5 1 0 .idle [0x7E, 0x05]).transport.input = 0x7E :: [0x05] := by decide
/-- Every head of a schedule that leaves the turn to the block. -/
theorem witness_PollFollowsItsLoop_turn (c : HostCall) (bytes : List Byte) (rest : List EnvMove) :
    BlockTurn [] [] ∧ BlockTurn (.wait :: rest) rest ∧ BlockTurn (.call c :: rest) (.call c :: rest) ∧
      BlockTurn (.rx bytes :: rest) (.rx bytes :: rest) ∧ BlockTurn (.abandon :: rest) (.abandon :: rest) :=
  ⟨.inl ⟨rfl, rfl⟩, .inr (.inl rfl), .inr (.inr (.inl ⟨_, _, rfl, rfl⟩)), .inr (.inr (.inr (.inl ⟨_, _, rfl, rfl⟩))),
    .inr (.inr (.inr (.inr ⟨_, rfl, rfl⟩)))⟩
/-- A drained `poll` in `Idle` returns while a later call waits: program P4. -/
theorem test_poll_returns_before_next_call :
    after (fun s => (s.polling, s.statuses, s.env)) (step { polled 5 1 0 .idle [] with env := [.call .poll] }) =
      some (false, [.ok], [.call .poll]) := by decide
/-- A byte already available is read, not abandoned, also with `ID_WAIT_ABANDON` true (R102). -/
theorem test_no_abandon_with_a_byte :
    after State.trace (step { polled 5 1 0 .awaitingId [0x06] with
      env := [.abandon], params := { idWaitAbandon := true, transportEcho := false } }) = some [.rd 0x06] := by decide
theorem witness_NothingRunsBeforeInitialize :
    State.reset.init = false ∧ Inv State.reset ∧ ∃ t, step State.reset = .next t :=
  ⟨rfl, by constructor <;> decide, _, rfl⟩
theorem witness_InitCheckIsReportedFirst :
    ((ready 5 1 []).init = true ∧ (ready 5 1 []).table.length < (9 : Byte).toNat) ∧
      (State.reset.init = false ∧ State.reset.table.length ≤ (8 : Byte).toNat) := by decide
theorem witness_RejectionChangesNothing :
    after State.statuses (exec (decodeHost .poll) State.reset) = some [.rejNotInit] ∧ Status.rejNotInit ≠ .ok := by decide
theorem witness_PollReturnsOnlyIdleAndDrained :
    after State.polling (step (polled 5 1 0 .idle [])) = some false ∧ (polled 5 1 0 .idle []).polling = true ∧
      (polled 5 1 0 .idle []).env.head? ≠ some .reset := by decide
theorem witness_CrcSecondFoldIsIdle : (255 : BitVec 16).toNat ≤ 255 := by decide
theorem witness_CrcOfSevenBytes : frameByte 0x000000002A010010 7 = 0x00 := by decide
theorem witness_SignExtensionIsInvisible :
    (0xFFFFFFFFC0000410 : Frame) = (0x10 : Byte).zeroExtend 64 ||| ((0x0004 : SensorId).zeroExtend 64 <<< 8) |||
      ((0xFFFFFFC0 : Value).signExtend 64 <<< 24) ∧ (0xFFFFFFC0 : Value).msb = true := by decide
theorem witness_WireFrameHasNoMarker :
    (wireFrame (sentFrame 0x10 0x0071 0))[7]? = some 0x7D ∧ (wireFrame (sentFrame 0x10 0x0072 0))[7]? = some 0x7D := by decide
theorem witness_WireFrameLengthBounds :
    ∀ b ∈ (frameBytes (sentFrame 0x7E 0x7E7E 0x7E7E7E7E)).take 7, b = 0x7E ∨ b = 0x7D := by decide
theorem witness_WireFrameDeterminesItsFrame :
    wireFrame (sentFrame 0x10 0x0071 0) ++ [0x7D] = wireFrame (sentFrame 0x10 0x0071 0) ++ [0x7D] := rfl
theorem witness_FlushLeavesNothingQueued : ∃ t, exec (.encodeAndSend 0x10 0x0100 42) State.reset = .next t := ⟨_, rfl⟩
theorem witness_OutputRowsSendTheirBytes : (0x7F : Byte) ≠ 0x7E ∧ (0x7C : Byte) ≠ 0x7D := by decide
theorem witness_EachInputByteHasOneClass :
    (RxContext.mk .idle 5 1).fsm = .idle ∧ (0x7F : Byte) ≠ 0x7E ∧ (RxContext.mk .awaitingId 0x7E 255).fsm = .awaitingId ∧
      (0x7E : Byte) = (RxContext.mk .awaitingId 0x7E 255).busId ∧
      0 < (RxContext.mk .awaitingId 0x7E 255).activeSlotCount.toNat ∧ (RxContext.mk .awaitingId 0x7E 0).activeSlotCount = 0 ∧
      (0x7D : Byte) ≠ (RxContext.mk .awaitingId 0x7E 0).busId := by decide
theorem witness_IdleByteEffects : (polled 5 1 0 .idle []).fsm = .idle ∧ (0x7F : Byte) ≠ 0x7E := by decide
theorem witness_MatchedIdByteReplies :
    (polled 5 8 7 .awaitingId []).fsm = .awaitingId ∧ 5 = (polled 5 8 7 .awaitingId []).busId ∧
      0 < (polled 5 8 7 .awaitingId []).activeSlotCount.toNat ∧
      readEntry (polled 5 8 7 .awaitingId []).cursor (polled 5 8 7 .awaitingId []) = some ⟨0x0000, 0x00000000⟩ := by decide
theorem witness_UnansweredIdBytes :
    ((polled 5 0 0 .awaitingId []).fsm = .awaitingId ∧ 5 = (polled 5 0 0 .awaitingId []).busId ∧
        (polled 5 0 0 .awaitingId []).activeSlotCount = 0) ∧
      ((polled 5 1 0 .awaitingId []).fsm = .awaitingId ∧ 0x85 ≠ (polled 5 1 0 .awaitingId []).busId) ∧
      ((polled 5 1 0 .idle [0x7E, 0x7E]).unit = none ∧ (polled 5 1 0 .idle [0x7E, 0x7E]).env = [] ∧
        (polled 5 1 0 .idle [0x7E, 0x7E]).polling = true ∧ (polled 5 1 0 .idle [0x7E, 0x7E]).fsm = .idle ∧
        (polled 5 1 0 .idle [0x7E, 0x7E]).transport.input = [0x7E, 0x7E] ∧
        0x7E ≠ (polled 5 1 0 .idle [0x7E, 0x7E]).busId) := by decide
theorem witness_UnwrittenSlotSendsZeroEntry :
    (polled 5 1 0 .awaitingId []).fsm = .awaitingId ∧ 5 = (polled 5 1 0 .awaitingId []).busId ∧
      0 < (polled 5 1 0 .awaitingId []).activeSlotCount.toNat ∧
      readEntry (polled 5 1 0 .awaitingId []).cursor (polled 5 1 0 .awaitingId []) = some ⟨0x0000, 0x00000000⟩ := by decide
theorem witness_RowsStopOffTheirCondition :
    (polled 5 9 8 .awaitingId []).fsm = .awaitingId ∧ 5 = (polled 5 9 8 .awaitingId []).busId ∧
      (polled 5 9 8 .awaitingId []).activeSlotCount ≠ 0 ∧
      (polled 5 9 8 .awaitingId []).table.length ≤ (polled 5 9 8 .awaitingId []).cursor.toNat := by decide
theorem witness_HoldEndsOnlyByBytesAbandonOrReset :
    (polled 5 1 0 .awaitingId []).unit = none ∧ (polled 5 1 0 .awaitingId []).polling = true ∧
      (polled 5 1 0 .awaitingId []).fsm = .awaitingId ∧ (polled 5 1 0 .awaitingId []).transport.input = [] ∧
      (polled 5 1 0 .awaitingId []).env = [] := by decide
theorem witness_HoldEndsOnlyByBytesAbandonOrReset_env (m : EnvMove) (rest : List EnvMove) :
    { polled 5 1 0 .awaitingId [] with env := m :: rest }.env = m :: rest := rfl
theorem witness_StepRunsTheDecodedInstruction :
    (({ State.reset with unit := some (.txByte 0x7E) } : State).unit = some (.txByte 0x7E) ∧
        decodeUnit (.txByte 0x7E) = .ok .txEsc7e) ∧
      ((ready 5 1 [.call .poll]).unit = none ∧ (ready 5 1 [.call .poll]).polling = false ∧
        (ready 5 1 [.call .poll]).env = [.call .poll]) ∧
      ((polled 5 1 0 .idle [0x7E]).unit = none ∧ (polled 5 1 0 .idle [0x7E]).polling = true ∧
        (polled 5 1 0 .idle [0x7E]).transport.input = [0x7E] ∧ (polled 5 1 0 .idle [0x7E]).env = []) ∧
      decodeTableWord 8 0x7E = some .rxMarker := by decide
/-- The third clause with an abandon first in the schedule. -/
theorem witness_StepRunsTheDecodedInstruction_abandon (rest : List EnvMove) :
    (polled 5 1 0 .awaitingId [0x05]).polling = true ∧ (polled 5 1 0 .awaitingId [0x05]).transport.input = [0x05] ∧
      BlockTurn { polled 5 1 0 .awaitingId [0x05] with env := .abandon :: rest }.env (.abandon :: rest) :=
  ⟨rfl, rfl, .inr (.inr (.inr (.inr ⟨_, rfl, rfl⟩)))⟩
theorem witness_ArrivalsOnlyExtendTheInput :
    (ready 5 1 [.rxNow [0x7E]]).unit = none ∧ (ready 5 1 [.rxNow [0x7E]]).env = [.rxNow [0x7E]] ∧
      (ready 5 1 [.rx [0x7E]]).env = [.rx [0x7E]] ∧ (ready 5 1 [.rx [0x7E]]).polling = false ∧
      (ready 5 1 [.echo 3]).env = [.echo 3] := by decide
theorem witness_DecodeOfEncode :
    (Instr.rxIdReply 5).wellFormed = true ∧ (Instr.rxIdReply 5).fits ⟨.awaitingId, 5, 1⟩ = true ∧
      (Instr.txLiteral 0x7F).wellFormed = true := by decide
theorem witness_EncodeOfDecode : decode (.rx ⟨.awaitingId, 5, 1⟩ [0x05]) = .ok (.rxIdReply 0x05, []) := by decide
theorem witness_ConfigurationIsSetOnce :
    after State.init (exec (.initializeDevice 5 3) State.reset) = some true ∧
      (∃ t, step (ready 5 1 [.call .poll]) = .next t) ∧ (ready 5 1 [.call .poll]).init = true ∧
      (ready 5 1 [.call .poll]).env.head? ≠ some .reset := ⟨by decide, ⟨_, rfl⟩, by decide, by decide⟩
theorem witness_TableIsWrittenByHostCallsOnly :
    (∃ t, exec (.setSensorData 7 0x0400 5) (ready 5 8 []) = .next t) ∧
      (∃ t, step (ready 5 8 [.call (.setSensorData 7 0x0400 5)]) = .next t) ∧ ∃ t, step (ready 5 8 [.reset]) = .next t :=
  ⟨⟨_, rfl⟩, ⟨_, rfl⟩, _, rfl⟩
theorem witness_CursorMovesOnlyOnReply :
    (∃ t, exec (.rxIdReply 5) (polled 5 3 2 .awaitingId []) = .next t) ∧
      (∃ t, step (polled 5 3 2 .awaitingId [0x05]) = .next t) ∧ ∃ t, step (ready 5 8 [.reset]) = .next t :=
  ⟨⟨_, rfl⟩, ⟨_, rfl⟩, _, rfl⟩
theorem witness_DirectionIsRestored : ∃ t, exec (.encodeAndSend 0x10 0x0100 42) State.reset = .next t := ⟨_, rfl⟩
theorem witness_ParametersNeverChange : ∃ t, step (ready 5 1 [.reset]) = .next t := ⟨_, rfl⟩
theorem witness_AtMostOneReplyPerMarker :
    (polled 5 1 0 .awaitingId [0x05]).unit = none ∧ (∃ t, step (polled 5 1 0 .awaitingId [0x05]) = .next t) ∧
      after State.fsm (step (polled 5 1 0 .idle [0x7E])) = some .awaitingId := ⟨rfl, ⟨_, rfl⟩, by decide⟩
theorem witness_InputIsReadInOrderOnce :
    (ready 5 1 [.rx [0x7E, 0x05]]).unit = none ∧ ∃ t, step (ready 5 1 [.rx [0x7E, 0x05]]) = .next t := ⟨rfl, _, rfl⟩
theorem witness_WrittenBytesAreQueuedOrSent :
    (∃ t, step (polled 5 1 0 .awaitingId [0x05]) = .next t) ∧
      (polled 5 1 0 .awaitingId [0x05]).transport.sent + (polled 5 1 0 .awaitingId [0x05]).transport.output.length =
        (writtenBytes (polled 5 1 0 .awaitingId [0x05]).trace).length := ⟨⟨_, rfl⟩, by decide⟩
theorem witness_ResetMeetsTheInvariants : 1 ≤ Config.defaultCapacity ∧ Config.defaultCapacity ≤ 255 := by decide
theorem witness_EveryStepKeepsTheInvariants :
    Inv (polled 5 1 0 .idle [0x7E, 0x05]) ∧ ∃ t, step (polled 5 1 0 .idle [0x7E, 0x05]) = .next t := ⟨inv_polled, _, rfl⟩
theorem witness_NoStepStops : Inv (ready 5 8 [.call .poll]) := inv_ready _
theorem witness_EveryStepKeepsTheLineOrder :
    (polled 5 1 0 .awaitingId [0x05]).unit = none ∧ linePhase (polled 5 1 0 .awaitingId [0x05]).trace = some .receive ∧
      ∃ t, step (polled 5 1 0 .awaitingId [0x05]) = .next t := ⟨rfl, rfl, _, rfl⟩
theorem witness_NoStepWritesTheMarker :
    (∃ t, step (polled 5 1 0 .awaitingId [0x05]) = .next t) ∧
      (0x7E : Byte) ∉ writtenBytes (polled 5 1 0 .awaitingId [0x05]).trace := ⟨⟨_, rfl⟩, by decide⟩
theorem witness_PollIsTheSpecsPoll :
    Inv (polled 5 1 0 .idle [0x7E, 0x05]) ∧ (polled 5 1 0 .idle [0x7E, 0x05]).polling = true ∧
      (polled 5 1 0 .idle [0x7E, 0x05]).env = [] := ⟨inv_polled, rfl, rfl⟩
theorem witness_RepliesGoRoundRobin :
    Inv (polled 5 1 0 .idle [0x7E, 0x05]) ∧ (polled 5 1 0 .idle [0x7E, 0x05]).polling = true ∧
      (polled 5 1 0 .idle [0x7E, 0x05]).env = [] ∧ 0 < (polled 5 1 0 .idle [0x7E, 0x05]).activeSlotCount.toNat :=
  ⟨inv_polled, rfl, rfl, by decide⟩
/-- A poll of the receiver and one byte more, in three pieces, the second in the hold of a `poll`, the third in its next pass. -/
def inThreePieces : List EnvMove := [.rxNow [0x7E], .call .poll, .wait, .rxNow [0x05], .rxNow [0x33]]
/-- The same bytes, at once. -/
def inOnePiece : List EnvMove := [.rx [0x7E, 0x05, 0x33], .call .poll]
theorem witness_DividingTheInputChangesNothing :
    (Inv (ready 5 8 []) ∧ (∀ m ∈ inThreePieces, pollsOrArrives m = true) ∧ (∀ m ∈ inOnePiece, pollsOrArrives m = true) ∧
        arrivingBytes inThreePieces = arrivingBytes inOnePiece ∧
        after (fun s => (s.env, s.transport.input)) (Sys2Proof.core.run 7 { ready 5 8 [] with env := inThreePieces }) =
          some ([], []) ∧
        after (fun s => (s.env, s.transport.input)) (Sys2Proof.core.run 5 { ready 5 8 [] with env := inOnePiece }) =
          some ([], [])) ∧
      Inv (polled 5 1 0 .awaitingId []) ∧ (polled 5 1 0 .awaitingId []).polling = true :=
  ⟨⟨inv_ready _, by decide, by decide, by decide, by decide, by decide⟩, inv_holding, rfl⟩
theorem witness_EchoedReplyIsDiscarded :
    (polled 5 1 0 .idle (wireFrame (sentFrame 0x10 0x0100 0x7E))).unit = none ∧
      (polled 5 1 0 .idle (wireFrame (sentFrame 0x10 0x0100 0x7E))).env = [] ∧
      (polled 5 1 0 .idle (wireFrame (sentFrame 0x10 0x0100 0x7E))).polling = true ∧
      (polled 5 1 0 .idle (wireFrame (sentFrame 0x10 0x0100 0x7E))).fsm = .idle ∧
      (polled 5 1 0 .idle (wireFrame (sentFrame 0x10 0x0100 0x7E))).transport.input =
        wireFrame (sentFrame 0x10 0x0100 0x7E) := ⟨rfl, rfl, rfl, rfl, rfl⟩
/-- The moves of a write, an arriving poll and a `poll` call. -/
def writeThenPoll : List EnvMove :=
  [.call (.setSensorData 0 0x0100 42), .rx [0x7E, 5], .call .poll, .wait, .wait]
theorem witness_WriteIsSeenByTheNextReply :
    Inv (ready 5 8 writeThenPoll) ∧ (ready 5 8 writeThenPoll).init = true ∧ (ready 5 8 writeThenPoll).polling = false ∧
      (ready 5 8 writeThenPoll).transport.input = [] ∧ 0 < (ready 5 8 writeThenPoll).activeSlotCount.toNat ∧
      (ready 5 8 writeThenPoll).env = .call (.setSensorData (ready 5 8 writeThenPoll).cursor 0x0100 42) ::
        .rx [0x7E, (ready 5 8 writeThenPoll).busId] :: .call .poll :: .wait :: .wait :: [] :=
  ⟨inv_ready _, rfl, rfl, rfl, by decide, rfl⟩
/-- The first clause: the slot is below `CAPACITY`, no later move overwrites it, and after four steps the next one replies from
it. -/
theorem witness_WriteIsSeenByTheNextReply_any :
    (0 : Byte).toNat < (ready 5 8 writeThenPoll).table.length ∧ (∀ m ∈ writeThenPoll.tail, overwrites 0 m = false) ∧
      (7 : Byte).toNat < (ready 5 8 writeThenPoll).table.length ∧ (∀ m ∈ writeThenPoll, overwrites 7 m = false) ∧
      after (fun s => (s.cursor, replyCount s.trace)) (Sys2Proof.core.run 4 (ready 5 8 writeThenPoll)) = some (0, 0) ∧
      after (fun s => replyCount s.trace) (Sys2Proof.core.run 5 (ready 5 8 writeThenPoll)) = some 1 := by decide
theorem witness_WaitBetweenTransactionsChangesNothing :
    (ready 5 8 []).unit = none ∧ (ready 5 8 []).polling = false ∧ (ready 5 8 []).env = [] ∧
      (ready 5 8 [.wait]).env = [.wait] ∧ (ready 5 8 [.abandon]).env = [.abandon] := by decide
end Sys2Proof.Tests
end

section
/-! Proofs of the statements about the block's state: what INITIALIZE writes, the line's direction, which instruction a step
runs, arrivals, and the invariants. -/

namespace Sys2Proof.Machine

/-! ### Which rows the decoders of host calls, input bytes and output bytes give -/

theorem decodeHost_format (c : HostCall) : (decodeHost c).format = .host := by
  cases c <;> rfl

theorem decodeRxByte_format (ctx : RxContext) (b : Byte) : (decodeRxByte ctx b).format = .rx := by
  unfold decodeRxByte
  split
  · split <;> rfl
  · split
    · split <;> rfl
    · rfl

theorem decodeTxByte_format (b : Byte) : (decodeTxByte b).format = .tx := by
  unfold decodeTxByte
  split
  · rfl
  · split <;> rfl

/-- In `Idle` the class of a byte does not depend on the configuration (30_encoding.md R61). -/
theorem decodeRxByte_idle (busId busId' n n' b : Byte) :
    decodeRxByte ⟨.idle, busId, n⟩ b = decodeRxByte ⟨.idle, busId', n'⟩ b := rfl

/-! ### INITIALIZE alone writes the configuration -/

/-- The configuration after an instruction: as before, or as INITIALIZE sets it before `S.init` is true. -/
theorem Effect.configuration {i : Instr} {s t : State} (he : Effect s i t) :
    (t.init = s.init ∧ t.busId = s.busId ∧ t.activeSlotCount = s.activeSlotCount) ∨
    (∃ busId n, i = .initializeDevice busId n ∧ s.init = false ∧ t.init = true ∧ t.busId = busId ∧
      t.activeSlotCount = n) := by
  cases he with
  | configured busId n hi => exact .inr ⟨busId, n, rfl, hi, rfl, rfl, rfl⟩
  | sent type id value =>
    rw [encodeAndSend_eq]
    exact .inl ⟨rfl, rfl, rfl⟩
  | replied e =>
    rw [reply, encodeAndSend_eq]
    exact .inl ⟨rfl, rfl, rfl⟩
  | output b =>
    rw [writeBytes_eq]
    exact .inl ⟨rfl, rfl, rfl⟩
  | _ => exact .inl ⟨rfl, rfl, rfl⟩

theorem Effect.keeps_configuration {i : Instr} {s t : State} (he : Effect s i t) (hi : s.init = true) :
    t.init = true ∧ t.busId = s.busId ∧ t.activeSlotCount = s.activeSlotCount := by
  obtain h | ⟨-, -, -, hf, -⟩ := he.configuration
  · exact hi ▸ h
  · rw [hi] at hf
    cases hf

/-- With `S.init` true every step but a reset leaves the configuration as it is. -/
theorem Stepped.keeps_configuration {s t : State} (h : Stepped s t) (hi : s.init = true)
    (hr : s.env.head? ≠ some .reset) :
    t.init = true ∧ t.busId = s.busId ∧ t.activeSlotCount = s.activeSlotCount := by
  cases h with
  | unit u i t hu hd he => exact he.keeps_configuration hi
  | call c rest t hu hp hv he => exact he.keeps_configuration hi
  | input b rest env t hu hp hb hv he => exact he.keeps_configuration hi
  | reset rest hu hv =>
    rw [hv] at hr
    exact absurd rfl hr
  | _ => exact ⟨hi, rfl, rfl⟩

/-! ### The `Dir` events of an instruction -/

/-- The bytes written cause no `Dir` event. -/
@[simp] theorem count_dir_map_wr (d : Dir) (bytes : List Byte) : (bytes.map Event.wr).count (.dir d) = 0 := by
  rw [List.count_eq_zero, List.mem_map]
  rintro ⟨b, -, h⟩
  cases h

/-- A transmission turns the line once each way. -/
theorem encodeAndSend_count_dir (d : Dir) (type : Byte) (id : SensorId) (value : Value) (s : State) :
    (encodeAndSend type id value s).trace.count (.dir d) = s.trace.count (.dir d) + 1 := by
  rw [encodeAndSend_eq]
  cases d <;> simp

theorem encodeAndSend_dir (type : Byte) (id : SensorId) (value : Value) (s : State) :
    (encodeAndSend type id value s).dir = .rx := by
  rw [encodeAndSend_eq]

theorem reply_trace (e : SensorEntry) (s : State) :
    (reply e s).trace = (encodeAndSend Config.typeSensor e.id e.value s).trace := rfl

theorem reply_dir (e : SensorEntry) (s : State) : (reply e s).dir = .rx := by
  rw [reply, State.setCursor_dir, encodeAndSend_dir]

theorem writeBytes_dir (bytes : List Byte) (s : State) : (writeBytes bytes s).dir = s.dir := by
  rw [writeBytes_eq]

theorem writeBytes_count_dir (d : Dir) (bytes : List Byte) (s : State) :
    (writeBytes bytes s).trace.count (.dir d) = s.trace.count (.dir d) := by
  simp [writeBytes_eq]

/-! ### Which instruction a step runs -/

/-- A request at the unit port that decodes is executed, the request taken (log 14). -/
theorem step_unit {s : State} {u : UnitCall} {i : Instr} (hu : s.unit = some u) (hd : decodeUnit u = .ok i) :
    step s = exec i { s with unit := none } :=
  step_run s (s.setUnit none) i (by simp only [nextMove, hu, hd])

/-- A host call that is due is executed, the move taken (10_state.md R11). -/
theorem step_call {s : State} {c : HostCall} {rest : List EnvMove} (hu : s.unit = none) (hp : s.polling = false)
    (hv : s.env = .call c :: rest) : step s = exec (decodeHost c) { s with env := rest } :=
  step_run s (s.setEnv rest) (decodeHost c) (by simp [nextMove, hu, hv, hp])

theorem holding_of_input {s : State} {b : Byte} {input : List Byte} (hb : s.transport.input = b :: input) :
    holding s = false := by
  simp [holding, available_eq, hb]

/-- The oldest input byte is read and executed, whatever the move that leaves the turn to the block (30_encoding.md R61). -/
theorem step_input {s : State} {b : Byte} {input : List Byte} {env : List EnvMove} (hu : s.unit = none)
    (hp : s.polling = true) (hb : s.transport.input = b :: input) (ht : Safety.BlockTurn s.env env) :
    step s = exec (decodeRxByte s.rxContext b) { s with
      env := env
      transport := { s.transport with input := input }
      trace := s.trace ++ [.rd b] } := by
  apply step_run
  rw [nextMove_blockTurn s env hu hp (holding_of_input hb) ht]
  exact blockMove_cons (s.setEnv env) b input hp hb

/-- A table word is a request at the unit port, or an input byte read in `Idle` (log 15). -/
theorem tableWord_cases {nbits w : Nat} {e : Encoded} (h : tableWord nbits w = some e) :
    (∃ u, e = .unit u) ∨ ∃ b, e = .rx ⟨.idle, 0, 0⟩ [b] := by
  unfold tableWord at h
  split at h
  · dsimp only at h
    split at h <;> cases h
    · exact .inl ⟨_, rfl⟩
    · exact .inr ⟨_, rfl⟩
  · split at h <;> cases h
    exact .inl ⟨_, rfl⟩

/-- What a table word decodes to is what the unit port's decoder, or the input's in `Idle`, makes of it. -/
theorem decodeTableWord_cases {nbits w : Nat} {i : Instr} (h : decodeTableWord nbits w = some i) :
    (∃ u, tableWord nbits w = some (.unit u) ∧ decodeUnit u = .ok i) ∨
    (∃ b, tableWord nbits w = some (.rx ⟨.idle, 0, 0⟩ [b]) ∧ decodeRxByte ⟨.idle, 0, 0⟩ b = i) := by
  cases hw : tableWord nbits w with
  | none => simp [decodeTableWord, hw] at h
  | some e =>
    obtain ⟨u, rfl⟩ | ⟨b, rfl⟩ := tableWord_cases hw
    · cases hd : decodeUnit u with
      | error e => simp [decodeTableWord, hw, decode, hd, Except.map] at h
      | ok j => exact .inl ⟨u, rfl, by simpa [decodeTableWord, hw, decode, hd, Except.map] using h⟩
    · exact .inr ⟨b, rfl, by simpa [decodeTableWord, hw, decode, decodeRx] using h⟩

/-- A table word placed by `withFetchWord` runs in a state with the block's table, transport and configuration as they were. -/
theorem step_withFetchWord (s : State) {nbits w : Nat} {i : Instr} (h : decodeTableWord nbits w = some i) :
    ∃ t, step (s.withFetchWord nbits w) = exec i t ∧ t.table = s.table ∧ t.transport = s.transport ∧
      t.busId = s.busId ∧ t.activeSlotCount = s.activeSlotCount ∧ t.cursor = s.cursor := by
  obtain ⟨u, hw, hd⟩ | ⟨b, hw, rfl⟩ := decodeTableWord_cases h
  · simp only [State.withFetchWord, hw, placeNext]
    exact ⟨_, step_unit rfl hd, rfl, rfl, rfl, rfl, rfl⟩
  · rw [decodeRxByte_idle 0 s.busId 0 s.activeSlotCount b]
    simp only [State.withFetchWord, hw, placeNext]
    exact ⟨_, step_input rfl rfl rfl (.inr (.inl rfl)), rfl, rfl, rfl, rfl, rfl⟩

/-! ### Arrivals -/

theorem step_rxNow {s : State} {bytes : List Byte} {rest : List EnvMove} (hu : s.unit = none)
    (hv : s.env = .rxNow bytes :: rest) :
    step s = .next { s with env := rest, transport := { s.transport with input := s.transport.input ++ bytes } } :=
  step_quiet s (deliver bytes (s.setEnv rest)) (by simp only [nextMove, hu, hv])

/-- Between host transactions the block waits, so an `rx` line is due (30_encoding.md R65). -/
theorem step_rx_ready {s : State} {bytes : List Byte} {rest : List EnvMove} (hu : s.unit = none) (hp : s.polling = false)
    (hv : s.env = .rx bytes :: rest) :
    step s = .next { s with env := rest, transport := { s.transport with input := s.transport.input ++ bytes } } :=
  have hw : waiting s = true := by simp [waiting, hp]
  step_quiet s (deliver bytes (s.setEnv rest)) (by simp only [nextMove, hu, hv, hw, if_true])

theorem step_echo {s : State} {n : Nat} {rest : List EnvMove} (hu : s.unit = none) (hv : s.env = .echo n :: rest) :
    step s = .next { s with
      env := rest
      transport := { s.transport with
        input := s.transport.input ++ s.transport.echo.take n
        echo := s.transport.echo.drop n } } :=
  step_quiet s (deliverEcho n (s.setEnv rest)) (by simp only [nextMove, hu, hv])

/-- The successor of a cursor is below a positive count (43_poll_fsm.md R100). -/
theorem nextCursor_lt (cursor n : Byte) (hn : 0 < n.toNat) : (nextCursor cursor n).toNat < n.toNat := by
  have hm := Nat.mod_lt (cursor.toNat + 1) hn
  rw [nextCursor, BitVec.toNat_ofNat, Nat.mod_eq_of_lt (hm.trans n.isLt)]
  exact hm

end Sys2Proof.Machine

namespace Sys2Proof.Safety

open Sys2Proof.Machine

/-! ### The invariants -/

/-- The state after reset meets the invariants, if its table has a legal size. -/
theorem inv_resetFor (capacity : Nat) (params : Config.Params) (h1 : 1 ≤ capacity) (h255 : capacity ≤ 255) :
    Inv (State.resetFor capacity params) where
  capacity := by simp [State.resetFor, Table.wf, Config.minCapacity, Config.maxCapacity, h1, h255]
  count_le := Nat.zero_le _
  cursor_lt := fun h => absurd h (Nat.lt_irrefl 0)
  cursor_zero := fun _ => rfl
  idle_between := fun _ => rfl
  dir_rx := rfl
  polling_init := fun h => nomatch h
  uninit := fun _ => ⟨rfl, rfl, by simp [State.resetFor]⟩
  codec_clear := rfl
  output_empty := rfl
  unit_none := rfl

/-- A reset re-establishes what it does not inherit. -/
theorem Inv.resetBlock {s : State} (h : Inv s) : Inv (resetBlock s) where
  capacity := resetBlock_wf s h.capacity
  count_le := Nat.zero_le _
  cursor_lt := fun h => absurd h (Nat.lt_irrefl 0)
  cursor_zero := fun _ => rfl
  idle_between := fun _ => rfl
  dir_rx := rfl
  polling_init := fun h => nomatch h
  uninit := fun _ => ⟨rfl, rfl, by simp [Machine.resetBlock, State.capacity]⟩
  codec_clear := rfl
  output_empty := h.output_empty
  unit_none := h.unit_none

/-- The invariants do not read the schedule, the records or the input. -/
theorem Inv.of_sameBlock {s t : State} (h : Inv s)
    (ht : t = { s with
      transport := { t.transport with output := s.transport.output }
      env := t.env
      trace := t.trace
      statuses := t.statuses
      params := t.params }) : Inv t := by
  rw [ht]
  exact { h with }

theorem Inv.setFsm_idle {s : State} (h : Inv s) : Inv (s.setFsm .idle) :=
  { h with idle_between := fun _ => rfl }

theorem Inv.pollReturn {s : State} (h : Inv s) (hf : s.fsm = .idle) : Inv (pollReturn s) :=
  { h with
    idle_between := fun _ => hf
    polling_init := fun hp => nomatch hp }

/-- A transmission leaves the line in receive, the transient state cleared and nothing queued. -/
theorem Inv.encodeAndSend {s : State} (h : Inv s) (type : Byte) (id : SensorId) (value : Value) :
    Inv (encodeAndSend type id value s) := by
  rw [encodeAndSend_eq]
  exact { h with
    dir_rx := rfl
    codec_clear := rfl
    output_empty := rfl }

theorem Inv.setCursor {s : State} (h : Inv s) (cursor : Byte) (hn : 0 < s.activeSlotCount.toNat)
    (hc : cursor.toNat < s.activeSlotCount.toNat) : Inv (s.setCursor cursor) :=
  { h with
    cursor_lt := fun _ => hc
    cursor_zero := fun h0 => absurd h0 hn.ne' }

theorem Inv.reply {s : State} (h : Inv s) (e : SensorEntry) (hn : 0 < s.activeSlotCount.toNat) : Inv (reply e s) := by
  have hs := h.encodeAndSend Config.typeSensor e.id e.value
  have hcount : (Machine.encodeAndSend Config.typeSensor e.id e.value s).activeSlotCount = s.activeSlotCount := by
    rw [encodeAndSend_eq]
  apply hs.setCursor <;> rw [hcount]
  · exact hn
  · exact nextCursor_lt s.cursor s.activeSlotCount hn

/-- An instruction presented by the host, or by an input byte of a `poll` in progress, keeps the invariants. -/
theorem Inv.of_effect {s t : State} {i : Instr} (h : Inv s) (he : Effect s i t)
    (hi : i.format = .host ∨ i.format = .rx ∧ s.polling = true) : Inv t := by
  cases he with
  | configured busId n _ hn =>
    exact { h with
      capacity := clearTable_wf s h.capacity
      count_le := by simpa using hn
      cursor_lt := fun hpos => hpos
      cursor_zero := fun _ => rfl
      idle_between := fun _ => rfl
      polling_init := fun _ => rfl
      uninit := fun hf => nomatch hf }
  | rejected c code _ => exact h.of_sameBlock rfl
  | written slot id value hinit _ =>
    exact { h with
      capacity := writeEntry_wf slot ⟨id, value⟩ s h.capacity
      count_le := by simpa using h.count_le
      uninit := fun hf => absurd (hinit.symm.trans hf) (by decide) }
  | returned _ hf _ => exact h.pollReturn hf
  | entered hinit =>
    exact { h with
      idle_between := fun hp => nomatch hp
      polling_init := fun _ => hinit }
  | codec i c hc => obtain ⟨f, rfl⟩ | ⟨id, v, k, rfl⟩ := hc <;> simp [Instr.format] at hi
  | sent type id value => exact h.encodeAndSend type id value
  | marker _ =>
    obtain ⟨-, hp⟩ := hi.resolve_left (by decide)
    exact { h with idle_between := fun hp' => absurd (hp.symm.trans hp') (by decide) }
  | discarded => exact h
  | replied e _ hn _ => exact (h.reply e (by bv_omega)).setFsm_idle
  | ignored => exact h.setFsm_idle
  | output b => simp [decodeTxByte_format] at hi

/-- The invariants are kept by whatever a step can do. -/
theorem Inv.of_stepped {s t : State} (h : Inv s) (hst : Stepped s t) : Inv t := by
  cases hst with
  | unit u i t hu => exact nomatch h.unit_none.symm.trans hu
  | call c rest t _ _ _ he => exact (h.of_sameBlock rfl).of_effect he (.inl (decodeHost_format c))
  | input b rest env t _ hp _ _ he =>
    exact (h.of_sameBlock rfl).of_effect he (.inr ⟨decodeRxByte_format s.rxContext b, hp⟩)
  | returned env _ _ _ hf _ => exact Inv.pollReturn (s := s.setEnv env) (h.of_sameBlock rfl) hf
  | held env => exact h.of_sameBlock rfl
  | arrived bytes rest => exact h.of_sameBlock rfl
  | echoed n rest => exact h.of_sameBlock rfl
  | abandoned rest => exact Inv.setFsm_idle (s := s.setEnv rest) (h.of_sameBlock rfl)
  | reset rest => exact Inv.resetBlock (s := s.setEnv rest) (h.of_sameBlock rfl)

end Sys2Proof.Safety

/-! ### The obligations -/

namespace Sys2Proof.Proofs

open Sys2Proof.Machine Sys2Proof.Safety

/-- Settles O50: everything a step can do keeps the invariants. -/
theorem everyStepKeepsTheInvariants : Obligations.EveryStepKeepsTheInvariants :=
  fun s t hs h => hs.of_stepped (step_stepped s t h)

/-- Settles O41: the configuration after an instruction, and after whatever a step can do. -/
theorem configurationIsSetOnce : Obligations.ConfigurationIsSetOnce :=
  ⟨fun i s t h => (exec_effect i s t h).configuration, fun s t h => (step_stepped s t h).keeps_configuration⟩

/-- Settles O44: a transmission turns the line once each way, and no other instruction turns it. -/
theorem directionIsRestored : Obligations.DirectionIsRestored := by
  intro i s t h
  cases exec_effect i s t h with
  | sent type id value =>
    exact .inr ⟨encodeAndSend_dir type id value s, encodeAndSend_count_dir .tx type id value s,
      encodeAndSend_count_dir .rx type id value s, .inl ⟨type, id, value, rfl⟩⟩
  | replied e =>
    rw [State.setFsm_trace, reply_trace]
    exact .inr ⟨reply_dir e s, encodeAndSend_count_dir .tx _ e.id e.value s,
      encodeAndSend_count_dir .rx _ e.id e.value s, .inr ⟨s.busId, rfl⟩⟩
  | output b => exact .inl ⟨writeBytes_dir _ s, fun d => writeBytes_count_dir d _ s⟩
  | _ => exact .inl ⟨rfl, fun _ => rfl⟩

/-- Settles O36, one step lemma for each way an instruction is presented. -/
theorem stepRunsTheDecodedInstruction : Obligations.StepRunsTheDecodedInstruction :=
  ⟨fun _ _ _ => step_unit, fun _ _ _ => step_call, fun _ _ _ _ => step_input, fun s _ _ _ => step_withFetchWord s⟩

/-- Settles O37, one step lemma for each move of the transport. -/
theorem arrivalsOnlyExtendTheInput : Obligations.ArrivalsOnlyExtendTheInput :=
  fun _ _ hu => ⟨fun _ => step_rxNow hu, fun _ hv hp => step_rx_ready hu hp hv, fun _ => step_echo hu⟩

/-- Settles O49: the table after reset has a legal size, and every other clause reads a reset value. -/
theorem resetMeetsTheInvariants : Obligations.ResetMeetsTheInvariants := inv_resetFor

end Sys2Proof.Proofs
end

section
/-! Proofs of the statements about the block's storage: the byte view of a frame, who writes the sensor table, the input stream,
and when a write of the table is seen. -/

namespace Sys2Proof.Machine

open Safety

/-! ### The byte view of a frame (20_memory.md R35 to R37) -/

/-- Bit by bit, the write of byte 7. -/
theorem getLsbD_setByte7 (c : Frame) (b : Byte) {i : Nat} (h : i < 64) :
    (setByte7 c b).getLsbD i = if i < 56 then c.getLsbD i else b.getLsbD (i - 56) := by
  have mask : (0x00FFFFFFFFFFFFFF : Frame).getLsbD i = decide (i < 56) := by
    have hm : (0x00FFFFFFFFFFFFFF : Frame) = BitVec.ofNat 64 (2 ^ 56 - 1) := rfl
    rw [hm, BitVec.getLsbD_ofNat, Nat.testBit_two_pow_sub_one, decide_eq_true h, Bool.true_and]
  rw [setByte7, BitVec.getLsbD_or, BitVec.getLsbD_and, mask]
  by_cases hi : i < 56
  · simp [hi]
  · simp [hi, h]

theorem extractLsb'_setByte7_low (c : Frame) (b : Byte) {start len : Nat} (h : start + len ≤ 56) :
    (setByte7 c b).extractLsb' start len = c.extractLsb' start len := by
  apply BitVec.eq_of_getLsbD_eq
  intro i hi
  rw [BitVec.getLsbD_extractLsb', BitVec.getLsbD_extractLsb', getLsbD_setByte7 c b (by omega), if_pos (by omega)]

theorem extractLsb'_setByte7_high (c : Frame) (b : Byte) : (setByte7 c b).extractLsb' 56 8 = b := by
  apply BitVec.eq_of_getLsbD_eq
  intro i hi
  rw [BitVec.getLsbD_extractLsb', getLsbD_setByte7 c b (by omega), if_neg (by omega), Nat.add_sub_cancel_left]
  simp [hi]

theorem frameByte_setByte7 (c : Frame) (b : Byte) {k : Nat} (hk : k < 7) : frameByte (setByte7 c b) k = frameByte c k :=
  extractLsb'_setByte7_low c b (by omega)

theorem frameBytes_setByte7 (c : Frame) (b : Byte) : frameBytes (setByte7 c b) = (frameBytes c).take 7 ++ [b] := by
  have h7 : frameByte (setByte7 c b) 7 = b := extractLsb'_setByte7_high c b
  simp [frameBytes, frameByte_setByte7, h7]

theorem extractLsb'_frameWord (type : Byte) (id : SensorId) (value : Value) (crc : Byte) (start len : Nat) :
    (frameWord type id value crc).extractLsb' start len = (crc ++ value ++ id ++ type).extractLsb' start len := rfl

theorem extractLsb'_frameWord_id (type : Byte) (id : SensorId) (value : Value) (crc : Byte) {start len : Nat}
    (h : start + len ≤ 16) : (frameWord type id value crc).extractLsb' (8 + start) len = id.extractLsb' start len := by
  rw [extractLsb'_frameWord, BitVec.extractLsb'_append_eq_of_le (by omega),
    BitVec.extractLsb'_append_eq_of_add_le (by omega), Nat.add_sub_cancel_left]

theorem extractLsb'_frameWord_value (type : Byte) (id : SensorId) (value : Value) (crc : Byte) {start len : Nat}
    (h : start + len ≤ 32) : (frameWord type id value crc).extractLsb' (24 + start) len = value.extractLsb' start len := by
  rw [extractLsb'_frameWord, BitVec.extractLsb'_append_eq_of_le (by omega), BitVec.extractLsb'_append_eq_of_le (by omega),
    BitVec.extractLsb'_append_eq_of_add_le (by omega), Nat.sub_sub, Nat.add_sub_cancel_left]

/-- The bytes of a frame word, as 30_encoding.md R50 lays them out. -/
theorem frameBytes_frameWord (type : Byte) (id : SensorId) (value : Value) (crc : Byte) :
    frameBytes (frameWord type id value crc) =
      [type, id.extractLsb' 0 8, id.extractLsb' 8 8, value.extractLsb' 0 8, value.extractLsb' 8 8, value.extractLsb' 16 8,
        value.extractLsb' 24 8, crc] := by
  have type_eq : (frameWord type id value crc).extractLsb' 0 8 = type := BitVec.extractLsb'_append_eq_right
  have id_eq {start} (h : start + 8 ≤ 16) := extractLsb'_frameWord_id type id value crc h
  have value_eq {start} (h : start + 8 ≤ 32) := extractLsb'_frameWord_value type id value crc h
  have crc_eq : (frameWord type id value crc).extractLsb' 56 8 = crc := by
    rw [extractLsb'_frameWord, BitVec.append_assoc, BitVec.append_assoc]
    exact BitVec.extractLsb'_append_eq_left
  rw [← id_eq (by decide), ← id_eq (by decide), ← value_eq (by decide), ← value_eq (by decide), ← value_eq (by decide),
    ← value_eq (by decide)]
  simp only [frameBytes, frameByte, Nat.reduceMul, Nat.reduceAdd, type_eq, crc_eq]

/-- The composite is the frame with byte 7 zero (41_frame_codec.md R75). -/
theorem composite_eq_frameWord (type : Byte) (id : SensorId) (value : Value) :
    composite type id value = frameWord type id value 0 := by
  apply BitVec.eq_of_getLsbD_eq
  intro i hi
  simp only [composite, frameWord, BitVec.getLsbD_append, BitVec.getLsbD_or, BitVec.getLsbD_shiftLeft,
    BitVec.truncate_eq_setWidth, BitVec.getLsbD_setWidth]
  grind

/-! ### The closed form of the checksum (40_crc.md R71) -/

/-- The accumulator over a sum of bytes: 0 for 0, else the residue modulo 255 taken from 1 to 255. -/
def onesSum (sum : Nat) : Nat := if sum = 0 then 0 else (sum - 1) % 255 + 1

theorem onesSum_of_le {n : Nat} (h : n ≤ 255) : onesSum n = n := by
  unfold onesSum
  split <;> omega

/-- A byte added by the CRC Engine counts in the sum as itself. -/
theorem onesSum_crcStep (acc : BitVec 16) (b : Byte) (n : Nat) (h : acc.toNat ≤ 255) :
    onesSum ((crcStep acc b).toNat + n) = onesSum (acc.toNat + (b.toNat + n)) := by
  rw [crcStep_toNat acc b h]
  unfold onesSum
  split
  · rw [Nat.add_assoc]
  · rw [if_neg (by omega), if_neg (by omega)]
    omega

theorem crcFold_toNat (bytes : List Byte) (acc : BitVec 16) (h : acc.toNat ≤ 255) :
    (bytes.foldl crcStep acc).toNat = onesSum (acc.toNat + (bytes.map BitVec.toNat).sum) := by
  induction bytes generalizing acc with
  | nil => exact (onesSum_of_le h).symm
  | cons b rest ih =>
    rw [List.foldl_cons, ih _ (crcStep_le acc b h), onesSum_crcStep acc b _ h, List.map_cons, List.sum_cons]

theorem crcAccumulate_toNat (bytes : List Byte) :
    (crcAccumulate bytes).toNat = onesSum (bytes.map BitVec.toNat).sum :=
  (crcFold_toNat bytes 0 (by decide)).trans (congrArg onesSum (Nat.zero_add _))

theorem closedCrc_eq (bytes : List Byte) :
    closedCrc bytes = BitVec.ofNat 8 (255 - onesSum (bytes.map BitVec.toNat).sum) := rfl

/-- `computeCRC` is the closed form. -/
theorem computeCRC_eq_closedCrc (c : Frame) : computeCRC c = closedCrc (frameBytes c) := by
  apply BitVec.eq_of_toNat_eq
  rw [closedCrc_eq, computeCRC_toNat, crcAccumulate_toNat, BitVec.toNat_ofNat]
  omega

/-- A zero byte at the end does not count (40_crc.md R72). -/
theorem closedCrc_append_zero (bytes : List Byte) : closedCrc (bytes ++ [0]) = closedCrc bytes := by
  simp [closedCrc_eq]

/-! ### What a transmission sends is what the spec says -/

theorem frameBytes_sentFrame (type : Byte) (id : SensorId) (value : Value) :
    frameBytes (sentFrame type id value) = specFrame type id value := by
  have hc : frameBytes (composite type id value) = (specFrame type id value).take 7 ++ [0] := by
    rw [composite_eq_frameWord, frameBytes_frameWord]
    rfl
  rw [sentFrame, frameBytes_setByte7, computeCRC_eq_closedCrc, hc, closedCrc_append_zero]
  rfl

theorem stuff_eq_specStuff (b : Byte) : stuff b = specStuff b := by
  by_cases h7e : b = Config.marker
  · subst h7e
    rfl
  by_cases h7d : b = Config.esc
  · subst h7d
    rfl
  exact (if_neg (not_or.mpr ⟨h7e, h7d⟩)).trans ((if_neg h7e).trans (if_neg h7d)).symm

/-- The wire bytes of a transmission are the spec's frame, each byte by the table of 30_encoding.md R56. -/
theorem wireFrame_sentFrame (type : Byte) (id : SensorId) (value : Value) :
    wireFrame (sentFrame type id value) = (specFrame type id value).flatMap specStuff := by
  rw [wireFrame, frameBytes_sentFrame, funext stuff_eq_specStuff]

/-- The events of a transmission are the spec's (41_frame_codec.md R80). -/
theorem encodeAndSend_trace (type : Byte) (id : SensorId) (value : Value) (s : State) :
    (encodeAndSend type id value s).trace = s.trace ++ specSendEvents type id value := by
  rw [encodeAndSend_eq, wireFrame_sentFrame]
  rfl

/-- The events of a reply, up to the advance of the cursor, are the spec's (43_poll_fsm.md R99). -/
theorem reply_events (e : SensorEntry) (s : State) : (reply e s).trace = s.trace ++ specReplyEvents e := by
  rw [reply_trace, encodeAndSend_trace]
  rfl

/-! ### Which decoders give a host transaction -/

theorem decodeUnit_format {u : UnitCall} {i : Instr} (h : decodeUnit u = .ok i) : i.format ≠ .host := by
  cases u with
  | computeCrc c =>
    cases h
    nofun
  | encodeAndSend type id value =>
    cases h
    nofun
  | txByte b =>
    cases h
    rw [decodeTxByte_format]
    decide
  | frame c =>
    simp only [decodeUnit, decodeFrame, frameBytes] at h
    split at h <;> cases h
    nofun

theorem decodeHost_eq_setSensorData {c : HostCall} {slot : Byte} {id : SensorId} {value : Value}
    (h : decodeHost c = .setSensorData slot id value) : c = .setSensorData slot id value := by
  cases c <;> cases h
  rfl

theorem decodeHost_eq_initializeDevice {c : HostCall} {busId n : Byte}
    (h : decodeHost c = .initializeDevice busId n) : c = .initializeDevice busId n := by
  cases c <;> cases h
  rfl

/-! ### The sensor table -/

theorem encodeAndSend_table (type : Byte) (id : SensorId) (value : Value) (s : State) :
    (encodeAndSend type id value s).table = s.table := by
  rw [encodeAndSend_eq]

theorem reply_table (e : SensorEntry) (s : State) : (reply e s).table = s.table := by
  rw [reply, State.setCursor_table, encodeAndSend_table]

theorem writeBytes_table (bytes : List Byte) (s : State) : (writeBytes bytes s).table = s.table := by
  rw [writeBytes_eq]

/-- The table after an instruction: as before, with one entry written, or with every entry zero. -/
theorem Effect.table {i : Instr} {s t : State} (he : Effect s i t) :
    t.table = s.table ∨
    (∃ slot id value, i = .setSensorData slot id value ∧ s.init = true ∧ slot.toNat < s.table.length ∧
      t.table = s.table.set slot.toNat ⟨id, value⟩) ∨
    (∃ busId n, i = .initializeDevice busId n ∧ s.init = false ∧
      t.table = List.replicate s.table.length SensorEntry.zero) := by
  cases he with
  | configured busId n hi => exact .inr (.inr ⟨busId, n, rfl, hi, rfl⟩)
  | written slot id value hi hs => exact .inr (.inl ⟨slot, id, value, rfl, hi, hs, rfl⟩)
  | sent type id value => exact .inl (encodeAndSend_table type id value s)
  | replied e => exact .inl (reply_table e s)
  | output b => exact .inl (writeBytes_table _ s)
  | _ => exact .inl rfl

/-- Only the host's instructions write the table. -/
theorem Effect.keeps_table {i : Instr} {s t : State} (he : Effect s i t) (hi : i.format ≠ .host) : t.table = s.table := by
  obtain h | ⟨slot, id, value, rfl, -⟩ | ⟨busId, n, rfl, -⟩ := he.table
  · exact h
  · exact absurd rfl hi
  · exact absurd rfl hi

/-- The table after a step: as before, or as a host call that was due or a reset leaves it. -/
theorem Stepped.table {s t : State} (h : Stepped s t) :
    t.table = s.table ∨
    (∃ slot id value rest, s.env = .call (.setSensorData slot id value) :: rest ∧ s.polling = false ∧ s.init = true ∧
      slot.toNat < s.table.length ∧ t.table = s.table.set slot.toNat ⟨id, value⟩) ∨
    (∃ busId n rest, s.env = .call (.initializeDevice busId n) :: rest ∧ s.polling = false ∧ s.init = false ∧
      t.table = List.replicate s.table.length SensorEntry.zero) ∨
    (∃ rest, s.env = .reset :: rest ∧ t.table = List.replicate s.table.length SensorEntry.zero) := by
  cases h with
  | unit u i t hu hd he => exact .inl (he.keeps_table (decodeUnit_format hd))
  | call c rest t hu hp hv he =>
    obtain ht | ⟨slot, id, value, hc, hi, hs, ht⟩ | ⟨busId, n, hc, hi, ht⟩ := he.table
    · exact .inl ht
    · exact .inr (.inl ⟨slot, id, value, rest, decodeHost_eq_setSensorData hc ▸ hv, hp, hi, hs, ht⟩)
    · exact .inr (.inr (.inl ⟨busId, n, rest, decodeHost_eq_initializeDevice hc ▸ hv, hp, hi, ht⟩))
  | input b rest env t hu hp hb hv he =>
    exact .inl (he.keeps_table (decodeRxByte_format s.rxContext b ▸ by decide))
  | reset rest hu hv => exact .inr (.inr (.inr ⟨rest, hv, rfl⟩))
  | _ => exact .inl rfl

/-! ### The input stream -/

theorem readBytes_append (xs ys : List Event) : readBytes (xs ++ ys) = readBytes xs ++ readBytes ys := by
  induction xs with
  | nil => rfl
  | cons e rest ih => cases e <;> simp [readBytes, ih]

@[simp] theorem readBytes_map_wr (bytes : List Byte) : readBytes (bytes.map .wr) = [] := by
  induction bytes with
  | nil => rfl
  | cons b rest ih => exact ih

/-- The bytes read, then those still buffered. -/
def inputStream (s : State) : List Byte := readBytes s.trace ++ s.transport.input

theorem writeBytes_inputStream (bytes : List Byte) (s : State) : inputStream (writeBytes bytes s) = inputStream s := by
  simp [inputStream, writeBytes_eq, readBytes_append]

theorem encodeAndSend_inputStream (type : Byte) (id : SensorId) (value : Value) (s : State) :
    inputStream (encodeAndSend type id value s) = inputStream s := by
  simp [inputStream, encodeAndSend_eq, Transport.drained, readBytes_append, readBytes]

/-- No instruction touches the input: the byte of an RX row has been read by the step. -/
theorem Effect.keeps_inputStream {i : Instr} {s t : State} (he : Effect s i t) : inputStream t = inputStream s := by
  cases he with
  | sent type id value => exact encodeAndSend_inputStream type id value s
  | replied e => exact encodeAndSend_inputStream Config.typeSensor e.id e.value s
  | output b => exact writeBytes_inputStream _ s
  | _ => rfl

/-- A byte read leaves the buffer and joins the bytes read. -/
theorem inputStream_read {s : State} {b : Byte} {rest : List Byte} (env : List EnvMove)
    (hb : s.transport.input = b :: rest) :
    inputStream { s with
      env := env
      transport := { s.transport with input := rest }
      trace := s.trace ++ [.rd b] } = inputStream s := by
  simp [inputStream, hb, readBytes_append, readBytes]

/-- The input stream grows at its end only: by the bytes of the arrival or the echo that is the first move of the schedule, or by
none. -/
def InputGrows (s t : State) : Prop :=
  ∃ arrived : List Byte, inputStream t = inputStream s ++ arrived ∧
    (arrived = [] ∨ (∃ rest, s.env = .rx arrived :: rest ∨ s.env = .rxNow arrived :: rest) ∨
      ∃ n rest, s.env = .echo n :: rest ∧ arrived = s.transport.echo.take n)

theorem InputGrows.of_eq {s t : State} (h : inputStream t = inputStream s) : InputGrows s t :=
  ⟨[], h.trans (List.append_nil _).symm, .inl rfl⟩

theorem Stepped.inputGrows {s t : State} (h : Stepped s t) : InputGrows s t := by
  cases h with
  | unit u i t hu hd he => exact .of_eq he.keeps_inputStream
  | call c rest t hu hp hv he => exact .of_eq he.keeps_inputStream
  | input b rest env t hu hp hb hv he => exact .of_eq (he.keeps_inputStream.trans (inputStream_read env hb))
  | arrived bytes rest hu hv => exact ⟨bytes, (List.append_assoc ..).symm, .inr (.inl ⟨rest, hv⟩)⟩
  | echoed n rest hu hv => exact ⟨_, (List.append_assoc ..).symm, .inr (.inr ⟨n, rest, hv, rfl⟩)⟩
  | _ => exact .of_eq rfl

/-! ### What the instructions of a write and of a poll answer -/

/-- A `setSensorData` of a slot that exists, in an initialised block, writes the entry (42_sensor_table.md R85). -/
theorem exec_setSensorData_accepted {slot : Byte} (id : SensorId) (value : Value) {s : State} (hi : s.init = true)
    (hs : slot.toNat < s.table.length) : exec (.setSensorData slot id value) s = .next { s with
      table := s.table.set slot.toNat ⟨id, value⟩
      statuses := s.statuses ++ [.ok] } := by
  have hc : checkSetSensorData slot s = .ok := by simp [checkSetSensorData, State.capacity, hi, hs.not_ge]
  simp only [exec, execSetSensorData, hc]
  rfl

/-- A `poll` with an input byte to read enters its loop (43_poll_fsm.md R93). -/
theorem exec_poll_entered {s : State} (hi : s.init = true) (hb : s.transport.input ≠ []) :
    exec .poll s = .next { s with polling := true } := by
  have hc : checkPoll s = .ok := by rw [checkPoll, hi, if_pos rfl]
  have ha : ¬(s.fsm = .idle ∧ available s = false) := by simp [available_eq, hb]
  simp only [exec, execPoll, hc, if_neg ha]
  rfl

theorem exec_rxMarker_idle {s : State} (hf : s.fsm = .idle) : exec .rxMarker s = .next { s with fsm := .awaitingId } := by
  simp only [exec, execRxMarker, if_pos hf]
  rfl

theorem exec_rxIdReply_matched {s : State} {e : SensorEntry} (hf : s.fsm = .awaitingId) (hn : s.activeSlotCount ≠ 0)
    (he : readEntry s.cursor s = some e) : exec (.rxIdReply s.busId) s = .next ((reply e s).setFsm .idle) := by
  rw [exec, execRxIdReply, if_pos ⟨hf, rfl, hn⟩, he]

/-! ### Every step answers -/

theorem exec_decodeHost_answers (c : HostCall) (s : State) : ∃ t, exec (decodeHost c) s = .next t := by
  cases c with
  | initializeDevice busId n =>
    simp only [decodeHost, exec, execInitialize]
    split <;> exact ⟨_, rfl⟩
  | setSensorData slot id value =>
    simp only [decodeHost, exec, execSetSensorData]
    split <;> exact ⟨_, rfl⟩
  | poll =>
    simp only [decodeHost, exec, execPoll]
    split
    · split <;> exact ⟨_, rfl⟩
    · exact ⟨_, rfl⟩

/-- The slot at the cursor exists, as far as a reply can read it. -/
def CursorHasSlot (s : State) : Prop := s.activeSlotCount ≠ 0 → s.cursor.toNat < s.table.length

theorem decodeRxByte_marker {s : State} (hf : s.fsm = .idle) : decodeRxByte s.rxContext Config.marker = .rxMarker := by
  simp only [decodeRxByte, State.rxContext, hf, if_true]

theorem decodeRxByte_reply {s : State} {b : Byte} (hf : s.fsm = .awaitingId) (hb : b = s.busId)
    (hn : s.activeSlotCount ≠ 0) : decodeRxByte s.rxContext b = .rxIdReply s.busId := by
  simp only [decodeRxByte, State.rxContext, hf, hb, if_true, if_neg hn]

/-- The row that an input byte is meets its condition (30_encoding.md R61). -/
theorem exec_decodeRxByte_answers {s : State} (b : Byte) (hs : CursorHasSlot s) :
    ∃ t, exec (decodeRxByte s.rxContext b) s = .next t := by
  cases hf : s.fsm with
  | idle =>
    by_cases hb : b = Config.marker <;>
      simp [decodeRxByte, State.rxContext, hf, hb, exec, execRxMarker, execRxDiscard]
  | awaitingId =>
    by_cases hb : b = s.busId
    · by_cases hn : s.activeSlotCount = 0
      · simp [decodeRxByte, State.rxContext, hf, hb, hn, exec, execRxIdNoslot]
      · rw [decodeRxByte_reply hf hb hn]
        exact ⟨_, exec_rxIdReply_matched hf hn (List.getElem?_eq_getElem (hs hn))⟩
    · simp [decodeRxByte, State.rxContext, hf, hb, exec, execRxIdMismatch]

/-- A move, taken. -/
def Move.take : Move → Host.Outcome State Fault Refusal
  | .run i s => exec i s
  | .quiet s => .next s
  | .undecodable r => .refused r

theorem step_eq_take (s : State) : step s = (nextMove s).take := by
  cases h : nextMove s <;> simp only [step, Move.take, h]

theorem blockMove_answers {s : State} (hs : CursorHasSlot s) : ∃ t, (blockMove s).take = .next t := by
  obtain ⟨-, hm⟩ | ⟨-, -, hm⟩ | ⟨b, rest, -, -, hm⟩ := blockMove_cases s <;> rw [hm]
  · exact ⟨_, rfl⟩
  · exact ⟨_, rfl⟩
  · exact exec_decodeRxByte_answers (s := { s with
      transport := { s.transport with input := rest }
      trace := s.trace ++ [.rd b] }) b hs

/-- With no unit request and a slot at the cursor every step answers. -/
theorem step_answers {s : State} (hu : s.unit = none) (hs : CursorHasSlot s) : ∃ t, step s = .next t := by
  have block (env : List EnvMove) : ∃ t, (blockMove (s.setEnv env)).take = .next t := blockMove_answers hs
  simp only [step_eq_take, nextMove, hu]
  rcases hv : s.env with _ | ⟨m, rest⟩
  · exact blockMove_answers hs
  cases m with
  | call c =>
    dsimp only
    split
    · exact blockMove_answers hs
    · exact exec_decodeHost_answers c (s.setEnv rest)
  | rx bytes =>
    dsimp only
    split
    · exact ⟨_, rfl⟩
    · exact blockMove_answers hs
  | wait => exact block rest
  | abandon =>
    dsimp only
    split
    · exact ⟨_, rfl⟩
    split
    · exact blockMove_answers hs
    · exact ⟨_, rfl⟩
  | _ => exact ⟨_, rfl⟩

/-- Where every step from a state with a property answers and keeps it, a run of any length does. -/
theorem run_keeps {P : State → Prop} (hstep : ∀ s, P s → ∃ t, step s = .next t ∧ P t) (k : Nat) :
    ∀ s, P s → ∃ t, Sys2Proof.core.run k s = .next t ∧ P t := by
  induction k with
  | zero => exact fun s hs => ⟨s, rfl, hs⟩
  | succ k ih =>
    intro s hs
    obtain ⟨u, hu, hPu⟩ := hstep s hs
    rw [run_succ k s u hu]
    exact ih u hPu

/-! ### The replies of a step -/

/-- An instruction of the host or of an input byte causes no event, or is a reply with the entry at the cursor. -/
theorem Effect.silent_or_reply {i : Instr} {s t : State} (he : Effect s i t) (hi : i.format = .host ∨ i.format = .rx) :
    t.trace = s.trace ∨
    ∃ e, i = .rxIdReply s.busId ∧ readEntry s.cursor s = some e ∧ t.trace = s.trace ++ specReplyEvents e := by
  cases he with
  | sent type id value => simp [Instr.format] at hi
  | output b => simp [decodeTxByte_format] at hi
  | replied e _ _ he => exact .inr ⟨e, rfl, he, reply_events e s⟩
  | _ => exact .inl rfl

theorem decodeRxByte_eq_rxIdReply {ctx : RxContext} {b b' : Byte} (h : decodeRxByte ctx b = .rxIdReply b') : b = b' := by
  unfold decodeRxByte at h
  split at h
  · split at h <;> cases h
  · split at h
    · split at h <;> cases h
      rfl
    · cases h

/-- With no unit request, a step that gives a reply has read the ID byte and sends the entry at the cursor. -/
theorem Stepped.noReply_or_reply {s t : State} (h : Stepped s t) (hu : s.unit = none) :
    replyCount t.trace = replyCount s.trace ∨
    ∃ e, readEntry s.cursor s = some e ∧ t.trace = s.trace ++ .rd s.busId :: specReplyEvents e := by
  cases h with
  | unit u i t hu' => exact nomatch hu.symm.trans hu'
  | call c rest t _ _ _ he =>
    obtain ht | ⟨e, hc, -⟩ := he.silent_or_reply (.inl (decodeHost_format c))
    · exact .inl (congrArg replyCount ht)
    · exact nomatch (decodeHost_format c).symm.trans (congrArg Instr.format hc)
  | input b rest env t _ hp hb hv he =>
    obtain ht | ⟨e, hi, hread, ht⟩ := he.silent_or_reply (.inr (decodeRxByte_format s.rxContext b))
    · exact .inl (by rw [ht]; simp [replyCount])
    · have hid : b = s.busId := decodeRxByte_eq_rxIdReply hi
      exact .inr ⟨e, hread, by simpa [hid] using ht⟩
  | _ => exact .inl rfl

/-! ### A slot's entry stays until the slot is overwritten -/

theorem Effect.env {i : Instr} {s t : State} (he : Effect s i t) : t.env = s.env := by
  cases he with
  | sent type id value => rw [encodeAndSend_eq]
  | replied e =>
    rw [reply, encodeAndSend_eq]
    rfl
  | output b => rw [writeBytes_eq]
  | _ => rfl

theorem EnvAfterBlock.suffix {s : State} {env : List EnvMove} (h : EnvAfterBlock s env) : env <:+ s.env := by
  obtain rfl | h := h
  · exact List.suffix_refl _
  · exact h ▸ List.suffix_cons _ _

/-- No step adds a move to the schedule. -/
theorem Stepped.env_suffix {s t : State} (h : Stepped s t) : t.env <:+ s.env := by
  have tail {m : EnvMove} {rest : List EnvMove} (hv : s.env = m :: rest) : rest <:+ s.env := hv ▸ List.suffix_cons m rest
  cases h with
  | unit u i t hu hd he => exact he.env ▸ List.suffix_refl _
  | call c rest t hu hp hv he => exact he.env ▸ tail hv
  | input b rest env t hu hp hb hv he => exact he.env ▸ hv.suffix
  | returned env hu hp hb hf hv => exact hv.suffix
  | held env hu hw hv => exact hv.elim EnvAfterBlock.suffix tail
  | arrived bytes rest hu hv => exact hv.elim tail tail
  | echoed n rest hu hv => exact tail hv
  | abandoned rest hu hh ha hv => exact tail hv
  | reset rest hu hv => exact tail hv

/-- In an initialised block only a write of the slot or a reset changes its entry. -/
theorem Stepped.keeps_entry {s t : State} (h : Stepped s t) (hi : s.init = true) (slot : Byte)
    (ho : ∀ m ∈ s.env, overwrites slot m = false) : readEntry slot t = readEntry slot s := by
  have head {m : EnvMove} {rest : List EnvMove} (hv : s.env = m :: rest) : overwrites slot m = false :=
    ho m (hv ▸ List.mem_cons_self)
  obtain ht | ⟨other, id, value, rest, hv, -, -, -, ht⟩ | ⟨busId, n, rest, -, -, hf, -⟩ | ⟨rest, hv, -⟩ := h.table
  · rw [readEntry, ht, readEntry]
  · have hne : slot ≠ other := fun he => absurd (head hv) (by simp [overwrites, he])
    rw [readEntry, ht]
    exact readEntry_writeEntry_other other slot ⟨id, value⟩ s hne
  · exact nomatch hi.symm.trans hf
  · exact nomatch head hv

end Sys2Proof.Machine

namespace Sys2Proof.Safety

open Sys2Proof.Machine

theorem Inv.cursorHasSlot {s : State} (h : Inv s) : CursorHasSlot s := fun hn =>
  (h.cursor_lt (by bv_omega)).trans_le h.count_le

/-- The entry `e` stands in a slot, in an initialised block, and no move to come overwrites it. -/
structure EntryStands (slot : Byte) (e : SensorEntry) (s : State) : Prop where
  inv : Inv s
  init : s.init = true
  entry : readEntry slot s = some e
  spared : ∀ m ∈ s.env, overwrites slot m = false

/-- Every step answers, and the entry stands after it. -/
theorem EntryStands.step {slot : Byte} {e : SensorEntry} {s : State} (h : EntryStands slot e s) :
    ∃ t, Machine.step s = .next t ∧ EntryStands slot e t := by
  obtain ⟨t, ht⟩ := step_answers h.inv.unit_none h.inv.cursorHasSlot
  have hst := step_stepped s t ht
  have hr : s.env.head? ≠ some .reset := fun hv => nomatch h.spared _ (List.mem_of_head? hv)
  exact ⟨t, ht, {
    inv := h.inv.of_stepped hst
    init := (hst.keeps_configuration h.init hr).1
    entry := (hst.keeps_entry h.init slot h.spared).trans h.entry
    spared := fun m hm => h.spared m (hst.env_suffix.subset hm) }⟩

/-- A reply from the slot sends the entry that stands there. -/
theorem EntryStands.reply_sends {slot : Byte} {e : SensorEntry} {s t : State} (h : EntryStands slot e s)
    (ht : Machine.step s = .next t) (hc : s.cursor = slot) (hn : replyCount t.trace ≠ replyCount s.trace) :
    t.trace = s.trace ++ .rd s.busId :: specReplyEvents e := by
  obtain hr | ⟨e', he', htr⟩ := (step_stepped s t ht).noReply_or_reply h.inv.unit_none
  · exact absurd hr hn
  · rw [hc, h.entry, Option.some.injEq] at he'
    exact he' ▸ htr

/-! ### A write, and a poll of the receiver after it -/

/-- The state after an accepted `setSensorData` that was due. -/
theorem step_write {slot : Byte} {id : SensorId} {value : Value} {rest : List EnvMove} {s : State} (h : Inv s)
    (hi : s.init = true) (hp : s.polling = false) (hs : slot.toNat < s.table.length)
    (hv : s.env = .call (.setSensorData slot id value) :: rest) : step s = .next { s with
      env := rest
      table := s.table.set slot.toNat ⟨id, value⟩
      statuses := s.statuses ++ [.ok] } :=
  (step_call h.unit_none hp hv).trans (exec_setSensorData_accepted id value hi hs)

/-- A marker read in `Idle` (43_poll_fsm.md R97). -/
theorem step_marker {s : State} {input : List Byte} {env : List EnvMove} (hu : s.unit = none) (hp : s.polling = true)
    (hf : s.fsm = .idle) (hb : s.transport.input = 0x7E :: input) (ht : BlockTurn s.env env) :
    step s = .next { s with
      fsm := .awaitingId
      env := env
      transport := { s.transport with input := input }
      trace := s.trace ++ [.rd 0x7E] } := by
  have hi : decodeRxByte s.rxContext 0x7E = .rxMarker := decodeRxByte_marker hf
  rw [step_input hu hp hb ht, hi]
  exact exec_rxMarker_idle hf

/-- The ID byte read in `AwaitingId`, with an active slot (43_poll_fsm.md R99). -/
theorem step_reply {s : State} {e : SensorEntry} {input : List Byte} {env : List EnvMove} (hu : s.unit = none)
    (hp : s.polling = true) (hf : s.fsm = .awaitingId) (hn : s.activeSlotCount ≠ 0) (he : readEntry s.cursor s = some e)
    (hb : s.transport.input = s.busId :: input) (ht : BlockTurn s.env env) :
    ∃ t, step s = .next t ∧ t.table = s.table ∧ t.trace = s.trace ++ .rd s.busId :: specReplyEvents e := by
  rw [step_input hu hp hb ht, decodeRxByte_reply hf rfl hn]
  refine ⟨_, exec_rxIdReply_matched hf hn he, ?_, ?_⟩
  · rw [State.setFsm_table, reply_table]
  · rw [State.setFsm_trace, reply_events, List.append_assoc]
    rfl

/-- Between host transactions: a poll of the receiver arrives, `poll` is called, its two bytes are read and the reply is given. -/
theorem run_receiverPolls {e : SensorEntry} {rest : List EnvMove} {s : State} (h : Inv s) (hi : s.init = true)
    (hp : s.polling = false) (hn : s.activeSlotCount ≠ 0) (he : readEntry s.cursor s = some e)
    (hb : s.transport.input = []) (hv : s.env = .rx [0x7E, s.busId] :: .call .poll :: .wait :: .wait :: rest) :
    ∃ t, Sys2Proof.core.run 4 s = .next t ∧ t.table = s.table ∧
      t.trace = s.trace ++ [.rd 0x7E, .rd s.busId] ++ specReplyEvents e := by
  have hu := h.unit_none
  have arrival := step_rx_ready hu hp hv
  have call := (step_call (s := { s with
    env := .call .poll :: .wait :: .wait :: rest
    transport := { s.transport with input := s.transport.input ++ [0x7E, s.busId] } }) hu hp rfl).trans
      (exec_poll_entered hi (by simp))
  have marker := step_marker (s := { s with
    polling := true
    env := .wait :: .wait :: rest
    transport := { s.transport with input := s.transport.input ++ [0x7E, s.busId] } })
      (input := [s.busId]) hu rfl (h.idle_between hp) (by rw [hb]; rfl) (.inr (.inl rfl))
  obtain ⟨t, reply, htable, htrace⟩ := step_reply (s := { s with
    fsm := .awaitingId
    polling := true
    env := .wait :: rest
    transport := { s.transport with input := [s.busId] }
    trace := s.trace ++ [.rd 0x7E] }) hu rfl rfl hn he rfl (.inr (.inl rfl))
  refine ⟨t, ?_, htable, by simpa using htrace⟩
  rw [run_succ _ _ _ arrival, run_succ _ _ _ call, run_succ _ _ _ marker, run_succ _ _ _ reply, run_zero]

end Sys2Proof.Safety

/-! ### The obligations -/

namespace Sys2Proof.Proofs

open Sys2Proof.Machine Sys2Proof.Safety

/-- Settles O18: the write of byte 7, bit by bit. -/
theorem byteSevenWriteKeepsTheRest : Obligations.ByteSevenWriteKeepsTheRest :=
  fun c b => ⟨frameBytes_setByte7 c b, extractLsb'_setByte7_low c b (by decide), extractLsb'_setByte7_high c b⟩

/-- Settles O42: the table after an instruction, and after whatever a step can do. -/
theorem tableIsWrittenByHostCallsOnly : Obligations.TableIsWrittenByHostCallsOnly :=
  ⟨fun i s t h => (exec_effect i s t h).table, fun s t h => (step_stepped s t h).table⟩

/-- Settles O47: no instruction touches the input stream, a read moves a byte inside it, and an arrival extends it. -/
theorem inputIsReadInOrderOnce : Obligations.InputIsReadInOrderOnce :=
  fun s t _ h => (step_stepped s t h).inputGrows

/-- Settles O58: that the entry stands is kept by every step of a run, and a reply sends the entry that stands at the cursor; the
given moves are run one by one. -/
theorem writeIsSeenByTheNextReply : Obligations.WriteIsSeenByTheNextReply := by
  constructor
  · intro s slot id value rest k h hi hp hs hv ho
    have hw := step_write h hi hp hs hv
    obtain ⟨t, hrun, ht⟩ := run_keeps (fun _ => EntryStands.step) k _ {
      inv := h.of_stepped (step_stepped _ _ hw)
      init := hi
      entry := readEntry_writeEntry_same slot ⟨id, value⟩ s hs
      spared := ho : EntryStands slot ⟨id, value⟩ _ }
    exact ⟨t, (run_succ k s _ hw).trans hrun, ht.entry, fun u hu hc hn => ht.reply_sends hu hc hn⟩
  · intro s id value rest h hi hp hb hn hv
    have hs : s.cursor.toNat < s.table.length := (h.cursor_lt hn).trans_le h.count_le
    have hw := step_write h hi hp hs hv
    have he := readEntry_writeEntry_same s.cursor ⟨id, value⟩ s hs
    obtain ⟨t, hrun, ht, htr⟩ := run_receiverPolls (h.of_stepped (step_stepped _ _ hw)) hi hp (by bv_omega) he hb rfl
    exact ⟨t, (run_succ 4 s _ hw).trans hrun, (congrArg (·[s.cursor.toNat]?) ht).trans he, htr⟩

end Sys2Proof.Proofs
end

section
/-! Proofs of the statements about the decoder: the fields of a frame, the classes of input bytes, and decoder against encoder. -/

namespace Sys2Proof

open Machine (frameBytes_frameWord)

/-! ### The fields of a frame (30_encoding.md R50, R51) -/

theorem sensorId_of_bytes (id : SensorId) :
    (id.extractLsb' 0 8).zeroExtend 16 ||| ((id.extractLsb' 8 8).zeroExtend 16 <<< 8) = id := by
  apply BitVec.eq_of_getLsbD_eq
  intro i hi
  simp only [BitVec.getLsbD_or, BitVec.getLsbD_shiftLeft, BitVec.truncate_eq_setWidth, BitVec.getLsbD_setWidth,
    BitVec.getLsbD_extractLsb']
  grind

theorem value_of_bytes (value : Value) :
    (value.extractLsb' 0 8).zeroExtend 32 ||| ((value.extractLsb' 8 8).zeroExtend 32 <<< 8) |||
      ((value.extractLsb' 16 8).zeroExtend 32 <<< 16) ||| ((value.extractLsb' 24 8).zeroExtend 32 <<< 24) = value := by
  apply BitVec.eq_of_getLsbD_eq
  intro i hi
  simp only [BitVec.getLsbD_or, BitVec.getLsbD_shiftLeft, BitVec.truncate_eq_setWidth, BitVec.getLsbD_setWidth,
    BitVec.getLsbD_extractLsb']
  grind

/-- The fields recovered from a frame's bytes. -/
def frameFields (c : Frame) : FrameFields :=
  fieldsOfBytes (frameByte c 0) (frameByte c 1) (frameByte c 2) (frameByte c 3) (frameByte c 4) (frameByte c 5)
    (frameByte c 6) (frameByte c 7)

@[simp] theorem frameFields_frameWord (type : Byte) (id : SensorId) (value : Value) (crc : Byte) :
    frameFields (frameWord type id value crc) = ⟨type, id, value, crc⟩ := by
  have h := frameBytes_frameWord type id value crc
  simp only [frameBytes, List.cons.injEq] at h
  obtain ⟨h0, h1, h2, h3, h4, h5, h6, h7, -⟩ := h
  rw [frameFields, h0, h1, h2, h3, h4, h5, h6, h7, fieldsOfBytes, sensorId_of_bytes, value_of_bytes]

/-- Every frame is the word of its bit fields. -/
theorem frameWord_extractLsb' (c : Frame) :
    frameWord (c.extractLsb' 0 8) (c.extractLsb' 8 16) (c.extractLsb' 24 32) (c.extractLsb' 56 8) = c := by
  apply BitVec.eq_of_getLsbD_eq
  intro i hi
  simp only [frameWord, BitVec.getLsbD_append, BitVec.getLsbD_extractLsb']
  grind

theorem frameWord_frameFields (c : Frame) :
    frameWord (frameFields c).type (frameFields c).sensorId (frameFields c).value (frameFields c).crc = c := by
  rw [← frameWord_extractLsb' c, frameFields_frameWord]

theorem frameFields_injective : Function.Injective frameFields := fun c d h => by
  rw [← frameWord_frameFields c, h, frameWord_frameFields]

theorem frameBytes_injective : Function.Injective frameBytes := fun c d h => by
  simp only [frameBytes, List.cons.injEq] at h
  obtain ⟨h0, h1, h2, h3, h4, h5, h6, h7, -⟩ := h
  apply frameFields_injective
  rw [frameFields, h0, h1, h2, h3, h4, h5, h6, h7, frameFields]

/-! ### The conditions of the rows (30_encoding.md R56, R61) -/

section Conditions

variable {ctx : RxContext} {b : Byte}

theorem wellFormed_rxDiscard : (Instr.rxDiscard b).wellFormed = true ↔ b ≠ 0x7E := bne_iff_ne

theorem wellFormed_txLiteral : (Instr.txLiteral b).wellFormed = true ↔ b ≠ 0x7E ∧ b ≠ 0x7D := by
  rw [Instr.wellFormed, Bool.and_eq_true, bne_iff_ne, bne_iff_ne]
  rfl

theorem fits_rxMarker : Instr.rxMarker.fits ctx = true ↔ ctx.fsm = .idle := beq_iff_eq

theorem fits_rxDiscard : (Instr.rxDiscard b).fits ctx = true ↔ ctx.fsm = .idle := beq_iff_eq

theorem fits_rxIdReply :
    (Instr.rxIdReply b).fits ctx = true ↔ ctx.fsm = .awaitingId ∧ b = ctx.busId ∧ ctx.activeSlotCount ≠ 0 := by
  rw [Instr.fits, Bool.and_eq_true, Bool.and_eq_true, beq_iff_eq, beq_iff_eq, bne_iff_ne, and_assoc]

theorem fits_rxIdNoslot :
    (Instr.rxIdNoslot b).fits ctx = true ↔ ctx.fsm = .awaitingId ∧ b = ctx.busId ∧ ctx.activeSlotCount = 0 := by
  rw [Instr.fits, Bool.and_eq_true, Bool.and_eq_true, beq_iff_eq, beq_iff_eq, beq_iff_eq, and_assoc]

theorem fits_rxIdMismatch : (Instr.rxIdMismatch b).fits ctx = true ↔ ctx.fsm = .awaitingId ∧ b ≠ ctx.busId := by
  rw [Instr.fits, Bool.and_eq_true, beq_iff_eq, bne_iff_ne]

end Conditions

/-! ### The decoder against the encoder -/

theorem decodeFrame_frameBytes (c : Frame) :
    decodeFrame (frameBytes c) =
      if (frameFields c).type = Config.typeSensor then
        .ok (.frameSensorData (frameFields c).sensorId (frameFields c).value (frameFields c).crc, [])
      else .error (.notSensorDataFrame (frameFields c).type) := rfl

theorem decodeUnit_frameWord (id : SensorId) (value : Value) (crc : Byte) :
    decodeUnit (.frame (frameWord 0x10 id value crc)) = .ok (.frameSensorData id value crc) := by
  rw [decodeUnit, decodeFrame_frameBytes, frameFields_frameWord]
  rfl

/-- A frame that decodes is the word of the fields it decodes to. -/
theorem decodeUnit_frame_ok {c : Frame} {i : Instr} (h : decodeUnit (.frame c) = .ok i) :
    ∃ id value crc, c = frameWord 0x10 id value crc ∧ i = .frameSensorData id value crc := by
  rw [decodeUnit, decodeFrame_frameBytes] at h
  split at h
  · rename_i ht
    cases h
    exact ⟨_, _, _, (ht ▸ frameWord_frameFields c).symm, rfl⟩
  · cases h

theorem decodeTxByte_literal {b : Byte} (h7e : b ≠ 0x7E) (h7d : b ≠ 0x7D) : decodeTxByte b = .txLiteral b :=
  (if_neg h7e).trans (if_neg h7d)

/-- The output row of a byte is a well-formed row whose encoding is the byte. -/
theorem decodeTxByte_encoded (ctx : RxContext) (b : Byte) :
    (decodeTxByte b).wellFormed = true ∧ (decodeTxByte b).fits ctx = true ∧
      encode ctx (decodeTxByte b) = .unit (.txByte b) := by
  by_cases h7e : b = 0x7E
  · subst h7e
    exact ⟨rfl, rfl, rfl⟩
  by_cases h7d : b = 0x7D
  · subst h7d
    exact ⟨rfl, rfl, rfl⟩
  rw [decodeTxByte_literal h7e h7d]
  exact ⟨wellFormed_txLiteral.mpr ⟨h7e, h7d⟩, rfl, rfl⟩

section InputClasses

variable {ctx : RxContext} {b : Byte}

theorem decodeRxByte_idle_marker (hf : ctx.fsm = .idle) (hb : b = 0x7E) : decodeRxByte ctx b = .rxMarker := by
  simp only [decodeRxByte, hf]
  exact if_pos hb

theorem decodeRxByte_idle_discard (hf : ctx.fsm = .idle) (hb : b ≠ 0x7E) : decodeRxByte ctx b = .rxDiscard b := by
  simp only [decodeRxByte, hf]
  exact if_neg hb

theorem decodeRxByte_id_reply (hf : ctx.fsm = .awaitingId) (hb : b = ctx.busId) (hn : ctx.activeSlotCount ≠ 0) :
    decodeRxByte ctx b = .rxIdReply b := by
  simp only [decodeRxByte, hf, if_pos hb, if_neg hn]

theorem decodeRxByte_id_noslot (hf : ctx.fsm = .awaitingId) (hb : b = ctx.busId) (hn : ctx.activeSlotCount = 0) :
    decodeRxByte ctx b = .rxIdNoslot b := by
  simp only [decodeRxByte, hf, if_pos hb, if_pos hn]

theorem decodeRxByte_id_mismatch (hf : ctx.fsm = .awaitingId) (hb : b ≠ ctx.busId) :
    decodeRxByte ctx b = .rxIdMismatch b := by
  simp only [decodeRxByte, hf, if_neg hb]

/-- The class of an input byte is a well-formed row that fits its context and whose encoding is the byte (30_encoding.md R61). -/
theorem decodeRxByte_encoded (ctx : RxContext) (b : Byte) :
    (decodeRxByte ctx b).wellFormed = true ∧ (decodeRxByte ctx b).fits ctx = true ∧
      encode ctx (decodeRxByte ctx b) = .rx ctx [b] := by
  cases hf : ctx.fsm with
  | idle =>
    by_cases hb : b = 0x7E
    · rw [decodeRxByte_idle_marker hf hb, hb]
      exact ⟨rfl, fits_rxMarker.mpr hf, rfl⟩
    · rw [decodeRxByte_idle_discard hf hb]
      exact ⟨wellFormed_rxDiscard.mpr hb, fits_rxDiscard.mpr hf, rfl⟩
  | awaitingId =>
    by_cases hb : b = ctx.busId
    · by_cases hn : ctx.activeSlotCount = 0
      · rw [decodeRxByte_id_noslot hf hb hn]
        exact ⟨rfl, fits_rxIdNoslot.mpr ⟨hf, hb, hn⟩, rfl⟩
      · rw [decodeRxByte_id_reply hf hb hn]
        exact ⟨rfl, fits_rxIdReply.mpr ⟨hf, hb, hn⟩, rfl⟩
    · rw [decodeRxByte_id_mismatch hf hb]
      exact ⟨rfl, fits_rxIdMismatch.mpr ⟨hf, hb⟩, rfl⟩

end InputClasses

theorem decode_rx_byte (ctx : RxContext) (b : Byte) : decode (.rx ctx [b]) = .ok (decodeRxByte ctx b, []) := rfl

/-- A well-formed row that fits the context decodes back from its encoding. -/
theorem decode_encode (ctx : RxContext) (i : Instr) (hw : i.wellFormed = true) (hc : i.fits ctx = true) :
    decode (encode ctx i) = .ok (i, []) := by
  cases i with
  | rxMarker =>
    rw [encode, decode_rx_byte, decodeRxByte_idle_marker (fits_rxMarker.mp hc) rfl]
  | rxDiscard b =>
    rw [encode, decode_rx_byte, decodeRxByte_idle_discard (fits_rxDiscard.mp hc) (wellFormed_rxDiscard.mp hw)]
  | rxIdReply b =>
    obtain ⟨hf, hb, hn⟩ := fits_rxIdReply.mp hc
    rw [encode, decode_rx_byte, decodeRxByte_id_reply hf hb hn]
  | rxIdNoslot b =>
    obtain ⟨hf, hb, hn⟩ := fits_rxIdNoslot.mp hc
    rw [encode, decode_rx_byte, decodeRxByte_id_noslot hf hb hn]
  | rxIdMismatch b =>
    obtain ⟨hf, hb⟩ := fits_rxIdMismatch.mp hc
    rw [encode, decode_rx_byte, decodeRxByte_id_mismatch hf hb]
  | txLiteral b =>
    obtain ⟨h7e, h7d⟩ := wellFormed_txLiteral.mp hw
    rw [encode, decode, decodeUnit, decodeTxByte_literal h7e h7d]
    rfl
  | frameSensorData id value crc =>
    rw [encode, decode, decodeUnit_frameWord]
    rfl
  | _ => rfl

/-- What decodes at a unit's boundary is the encoding of the row it decodes to. -/
theorem encode_decodeUnit (ctx : RxContext) {u : UnitCall} {i : Instr} (h : decodeUnit u = .ok i) :
    i.wellFormed = true ∧ i.fits ctx = true ∧ encode ctx i = .unit u := by
  cases u with
  | computeCrc c =>
    cases h
    exact ⟨rfl, rfl, rfl⟩
  | encodeAndSend type id value =>
    cases h
    exact ⟨rfl, rfl, rfl⟩
  | txByte b =>
    cases h
    exact decodeTxByte_encoded ctx b
  | frame c =>
    obtain ⟨id, value, crc, rfl, rfl⟩ := decodeUnit_frame_ok h
    exact ⟨rfl, rfl, rfl⟩

theorem encode_decodeHost (ctx : RxContext) (c : HostCall) :
    (decodeHost c).wellFormed = true ∧ (decodeHost c).fits ctx = true ∧ encode ctx (decodeHost c) = .host c := by
  cases c <;> exact ⟨rfl, rfl, rfl⟩

/-- What decodes with no byte left over is the encoding of the row it decodes to, in some context that the row fits. -/
theorem encode_decode {e : Encoded} {i : Instr} (h : decode e = .ok (i, [])) :
    ∃ ctx : RxContext, i.wellFormed = true ∧ i.fits ctx = true ∧ encode ctx i = e := by
  cases e with
  | host c =>
    cases h
    exact ⟨⟨.idle, 0, 0⟩, encode_decodeHost _ c⟩
  | unit u =>
    cases hd : decodeUnit u with
    | error e => simp [decode, hd, Except.map] at h
    | ok j =>
      obtain rfl : j = i := by simpa [decode, hd, Except.map] using h
      exact ⟨⟨.idle, 0, 0⟩, encode_decodeUnit _ hd⟩
  | rx ctx bytes =>
    cases bytes with
    | nil => cases h
    | cons b rest =>
      cases h
      exact ⟨ctx, decodeRxByte_encoded ctx b⟩

end Sys2Proof

/-! ### The obligations -/

namespace Sys2Proof.Proofs

open Sys2Proof.Machine Sys2Proof.Safety

/-- Settles O39: one case for each row, by the equation of its decoder. -/
theorem decodeOfEncode : Obligations.DecodeOfEncode := decode_encode

/-- Settles O40: one case for each format. -/
theorem encodeOfDecode : Obligations.EncodeOfDecode := fun _ _ h =>
  have ⟨ctx, hw, hc, he⟩ := encode_decode h
  ⟨hw, ctx, hc, he⟩

/-- Settles O15: the byte view is injective because the fields are recovered from it. -/
theorem frameFieldsRoundTrip : Obligations.FrameFieldsRoundTrip :=
  ⟨fun type id value crc => ⟨frameBytes_frameWord type id value crc, frameFields_frameWord type id value crc⟩,
    fun _ _ h => frameBytes_injective h⟩

/-- Settles O29: the class of the byte is such a row, and any such row decodes back from its encoding, the byte. -/
theorem eachInputByteHasOneClass : Obligations.EachInputByteHasOneClass := by
  intro ctx b
  obtain ⟨hw, hc, he⟩ := decodeRxByte_encoded ctx b
  refine ⟨⟨decodeRxByte ctx b, ⟨decodeRxByte_format ctx b, hw, hc, he⟩, ?_⟩, he, decodeRxByte_idle_marker,
    decodeRxByte_idle_discard, fun hf hb hn => decodeRxByte_id_reply hf hb (by bv_omega), decodeRxByte_id_noslot,
    decodeRxByte_id_mismatch⟩
  rintro i ⟨-, hw', hc', he'⟩
  have h := decode_encode ctx i hw' hc'
  rw [he', decode_rx_byte] at h
  cases h
  rfl

/-- Settles O38. -/
theorem specWordsDecode : Obligations.SpecWordsDecode := by
  unfold Obligations.SpecWordsDecode
  decide

end Sys2Proof.Proofs
end

section
/-! Proofs of the statements about the wire format: the frame sent and its checksum, stuffing and its inverse, the length of a wire
frame, and what the rows and the steps write. -/

namespace Sys2Proof.Machine

open Safety

/-! ### The frame sent (41_frame_codec.md R75, R77) -/

/-- Bytes 0 to 6 of a frame, from its fields (30_encoding.md R50). -/
def frameHead (type : Byte) (id : SensorId) (value : Value) : List Byte :=
  [type, id.extractLsb' 0 8, id.extractLsb' 8 8, value.extractLsb' 0 8, value.extractLsb' 8 8, value.extractLsb' 16 8,
    value.extractLsb' 24 8]

theorem specFrame_eq (type : Byte) (id : SensorId) (value : Value) :
    specFrame type id value = frameHead type id value ++ [closedCrc (frameHead type id value)] := rfl

theorem frameByte_composite_seven (type : Byte) (id : SensorId) (value : Value) :
    frameByte (composite type id value) 7 = 0 := by
  rw [composite_eq_frameWord]
  exact Option.some.inj (congrArg (·[7]?) (frameBytes_frameWord type id value 0))

theorem take_frameBytes_sentFrame (type : Byte) (id : SensorId) (value : Value) :
    (frameBytes (sentFrame type id value)).take 7 = (frameBytes (composite type id value)).take 7 := by
  rw [sentFrame, frameBytes_setByte7]
  rfl

theorem frameByte_sentFrame_seven (type : Byte) (id : SensorId) (value : Value) :
    frameByte (sentFrame type id value) 7 = closedCrc (frameHead type id value) :=
  Option.some.inj (congrArg (·[7]?) (frameBytes_sentFrame type id value))

/-! ### Stuffing (30_encoding.md R56, R58) -/

/-- A frame byte that is sent as a pair. -/
abbrev IsEscaped (b : Byte) : Prop := b = 0x7E ∨ b = 0x7D

theorem isEscaped_iff_toNat {b : Byte} : IsEscaped b ↔ 125 ≤ b.toNat ∧ b.toNat ≤ 126 := by
  unfold IsEscaped
  bv_omega

theorem stuff_of_isEscaped {b : Byte} (h : IsEscaped b) : stuff b = [0x7D, b ^^^ 0x20] := if_pos h

theorem stuff_of_not_isEscaped {b : Byte} (h : ¬IsEscaped b) : stuff b = [b] := if_neg h

/-- The second byte of a pair. -/
theorem xor_of_isEscaped {b : Byte} (h : IsEscaped b) : b ^^^ 0x20 = 0x5E ∨ b ^^^ 0x20 = 0x5D := by
  obtain rfl | rfl := h
  · exact .inl rfl
  · exact .inr rfl

/-- Wire bytes without a marker, in which each 0x7D begins a pair. -/
def WellStuffed (wire : List Byte) : Prop :=
  0x7E ∉ wire ∧ ∀ i : Nat, wire[i]? = some (0x7D : Byte) →
    wire[i + 1]? = some (0x5E : Byte) ∨ wire[i + 1]? = some (0x5D : Byte)

theorem WellStuffed.nil : WellStuffed [] := ⟨List.not_mem_nil, fun _ h => nomatch h⟩

theorem WellStuffed.cons {b : Byte} {wire : List Byte} (h : WellStuffed wire) (hb : b ≠ 0x7E)
    (hnext : b = 0x7D → wire[0]? = some (0x5E : Byte) ∨ wire[0]? = some (0x5D : Byte)) : WellStuffed (b :: wire) := by
  constructor
  · rw [List.mem_cons, not_or]
    exact ⟨hb.symm, h.1⟩
  · rintro (_ | i) hi
    · exact hnext (Option.some.inj hi)
    · exact h.2 i hi

theorem WellStuffed.pair {x : Byte} {wire : List Byte} (h : WellStuffed wire) (hx : x = 0x5E ∨ x = 0x5D) :
    WellStuffed (0x7D :: x :: wire) := by
  have second : WellStuffed (x :: wire) := by
    obtain rfl | rfl := hx
    all_goals exact h.cons (by decide) fun he => absurd he (by decide)
  exact second.cons (by decide) fun _ => hx.imp (congrArg some) (congrArg some)

theorem WellStuffed.stuff_append (b : Byte) {wire : List Byte} (h : WellStuffed wire) : WellStuffed (stuff b ++ wire) := by
  by_cases hb : IsEscaped b
  · rw [stuff_of_isEscaped hb]
    exact h.pair (xor_of_isEscaped hb)
  · rw [stuff_of_not_isEscaped hb]
    obtain ⟨h7e, h7d⟩ := not_or.mp hb
    exact h.cons h7e fun hb => absurd hb h7d

theorem wellStuffed_flatMap_stuff (bytes : List Byte) : WellStuffed (bytes.flatMap stuff) := by
  induction bytes with
  | nil => exact .nil
  | cons b rest ih => exact ih.stuff_append b

/-! ### The inverse of stuffing (30_encoding.md R59) -/

theorem xor_stuffMask_cancel (b : Byte) : b ^^^ Config.stuffMask ^^^ Config.stuffMask = b := by
  rw [BitVec.xor_assoc, BitVec.xor_self, BitVec.xor_zero]

theorem destuff_literal {b : Byte} (rest : List Byte) (hb : b ≠ 0x7D) :
    destuff (b :: rest) = (destuff rest).map (b :: ·) := by
  cases rest with
  | nil => exact if_neg hb
  | cons x rest => exact if_neg hb

theorem destuff_stuff_append (b : Byte) (rest : List Byte) :
    destuff (stuff b ++ rest) = (destuff rest).map (b :: ·) := by
  by_cases hb : IsEscaped b
  · have pair : destuff (0x7D :: (b ^^^ 0x20) :: rest) =
        (destuff rest).map ((b ^^^ Config.stuffMask ^^^ Config.stuffMask) :: ·) := if_pos rfl
    rw [stuff_of_isEscaped hb]
    rwa [xor_stuffMask_cancel] at pair
  · rw [stuff_of_not_isEscaped hb]
    exact destuff_literal rest (not_or.mp hb).2

theorem destuff_flatMap_stuff (bytes : List Byte) : destuff (bytes.flatMap stuff) = some bytes := by
  induction bytes with
  | nil => rfl
  | cons b rest ih => rw [List.flatMap_cons, destuff_stuff_append, ih, Option.map_some]

/-- A stream tells where the first frame byte's wire bytes end: 0x7D begins a pair, and only a pair begins with it. -/
theorem stuff_append_inj {b d : Byte} {xs ys : List Byte} (h : stuff b ++ xs = stuff d ++ ys) : b = d ∧ xs = ys := by
  by_cases hb : IsEscaped b <;> by_cases hd : IsEscaped d
  · rw [stuff_of_isEscaped hb, stuff_of_isEscaped hd] at h
    injection h with _ h
    injection h with hx h
    exact ⟨(BitVec.xor_left_inj _).mp hx, h⟩
  · rw [stuff_of_isEscaped hb, stuff_of_not_isEscaped hd] at h
    injection h with h _
    exact absurd (.inr h.symm) hd
  · rw [stuff_of_not_isEscaped hb, stuff_of_isEscaped hd] at h
    injection h with h _
    exact absurd (.inr h) hb
  · rw [stuff_of_not_isEscaped hb, stuff_of_not_isEscaped hd] at h
    injection h with h h'
    exact ⟨h, h'⟩

theorem flatMap_stuff_append_inj {bs ds xs ys : List Byte} (hl : bs.length = ds.length)
    (h : bs.flatMap stuff ++ xs = ds.flatMap stuff ++ ys) : bs = ds ∧ xs = ys := by
  induction bs generalizing ds with
  | nil =>
    obtain rfl := List.length_eq_zero_iff.mp hl.symm
    exact ⟨rfl, h⟩
  | cons b bs ih =>
    cases ds with
    | nil => cases hl
    | cons d ds =>
      rw [List.flatMap_cons, List.flatMap_cons, List.append_assoc, List.append_assoc] at h
      obtain ⟨rfl, htail⟩ := stuff_append_inj h
      obtain ⟨rfl, hrest⟩ := ih (Nat.succ.inj hl) htail
      exact ⟨rfl, hrest⟩

/-! ### The length of a wire frame (30_encoding.md R57) -/

theorem length_flatMap_stuff (bytes : List Byte) :
    (bytes.flatMap stuff).length = bytes.length + bytes.countP (IsEscaped ·) := by
  induction bytes with
  | nil => rfl
  | cons b rest ih =>
    rw [List.flatMap_cons, List.length_append, ih, List.countP_cons, List.length_cons]
    by_cases hb : IsEscaped b
    · rw [stuff_of_isEscaped hb, if_pos (decide_eq_true hb), List.length_cons, List.length_singleton]
      omega
    · rw [stuff_of_not_isEscaped hb, if_neg (by simpa using hb), List.length_singleton]
      omega

/-- If the last byte is not stuffed when all before it are, not all bytes are stuffed. -/
theorem countP_isEscaped_append_le {head : List Byte} {last : Byte} (h : (∀ b ∈ head, IsEscaped b) → ¬IsEscaped last) :
    (head ++ [last]).countP (IsEscaped ·) ≤ head.length := by
  rw [List.countP_append, List.countP_singleton]
  by_cases hall : ∀ b ∈ head, IsEscaped b
  · rw [if_neg (by simpa using h hall)]
    exact List.countP_le_length
  · have hlt : head.countP (IsEscaped ·) < head.length := by
      refine lt_of_le_of_ne List.countP_le_length fun he => hall fun b hb => ?_
      exact of_decide_eq_true (List.countP_eq_length.mp he b hb)
    split <;> omega

theorem sum_of_isEscaped {bytes : List Byte} (h : ∀ b ∈ bytes, IsEscaped b) :
    bytes.length * 125 ≤ (bytes.map BitVec.toNat).sum ∧ (bytes.map BitVec.toNat).sum ≤ bytes.length * 126 := by
  have bound : ∀ n ∈ bytes.map BitVec.toNat, 125 ≤ n ∧ n ≤ 126 := by
    rintro n hn
    obtain ⟨b, hb, rfl⟩ := List.mem_map.mp hn
    exact isEscaped_iff_toNat.mp (h b hb)
  have lower := List.card_nsmul_le_sum _ _ fun n hn => (bound n hn).1
  have upper := List.sum_le_card_nsmul _ _ fun n hn => (bound n hn).2
  simp only [List.length_map, smul_eq_mul] at lower upper
  exact ⟨lower, upper⟩

theorem closedCrc_toNat (bytes : List Byte) :
    (closedCrc bytes).toNat = 255 - onesSum (bytes.map BitVec.toNat).sum := by
  rw [closedCrc_eq, BitVec.toNat_ofNat]
  omega

/-- The checksum of seven stuffed bytes is not stuffed: their sum is 875 to 882, so it is 138 to 145. -/
theorem closedCrc_not_isEscaped {head : List Byte} (hl : head.length = 7) (h : ∀ b ∈ head, IsEscaped b) :
    ¬IsEscaped (closedCrc head) := by
  have hsum := sum_of_isEscaped h
  rw [isEscaped_iff_toNat, closedCrc_toNat, onesSum]
  split <;> omega

/-- The checksum of type 0x10 and six stuffed bytes is not stuffed: their sum is 766 to 772, so it is 248 to 254. -/
theorem closedCrc_typeSensor_not_isEscaped {tail : List Byte} (hl : tail.length = 6) (h : ∀ b ∈ tail, IsEscaped b) :
    ¬IsEscaped (closedCrc (0x10 :: tail)) := by
  have hsum := sum_of_isEscaped h
  have htype : ((0x10 : Byte) :: tail).map BitVec.toNat = 16 :: tail.map BitVec.toNat := rfl
  rw [isEscaped_iff_toNat, closedCrc_toNat, onesSum, htype, List.sum_cons]
  split <;> omega

theorem length_wireFrame_sentFrame (type : Byte) (id : SensorId) (value : Value) :
    (wireFrame (sentFrame type id value)).length = 8 + (specFrame type id value).countP (IsEscaped ·) := by
  rw [wireFrame, frameBytes_sentFrame, length_flatMap_stuff]
  rfl

theorem countP_specFrame_le (type : Byte) (id : SensorId) (value : Value) :
    (specFrame type id value).countP (IsEscaped ·) ≤ 7 := by
  rw [specFrame_eq]
  exact countP_isEscaped_append_le (closedCrc_not_isEscaped rfl)

theorem countP_specFrame_typeSensor_le (id : SensorId) (value : Value) :
    (specFrame 0x10 id value).countP (IsEscaped ·) ≤ 6 := by
  rw [specFrame_eq, frameHead, List.cons_append, List.countP_cons_of_neg (by decide)]
  exact countP_isEscaped_append_le (closedCrc_typeSensor_not_isEscaped rfl)

/-! ### What the output rows and the steps write -/

/-- The output row of a byte writes its wire bytes. -/
theorem exec_decodeTxByte (b : Byte) (s : State) : exec (decodeTxByte b) s = .next (writeBytes (stuff b) s) := by
  by_cases h7e : b = 0x7E
  · rw [h7e]
    rfl
  by_cases h7d : b = 0x7D
  · rw [h7d]
    rfl
  have hb : ¬IsEscaped b := not_or.mpr ⟨h7e, h7d⟩
  rw [decodeTxByte_literal h7e h7d, stuff_of_not_isEscaped hb]
  exact if_neg hb

theorem exec_decodeTxByte_eq (b : Byte) (s : State) :
    exec (decodeTxByte b) s = .next { s with
      transport := { s.transport with output := s.transport.output ++ specStuff b }
      trace := s.trace ++ (specStuff b).map Event.wr } := by
  rw [exec_decodeTxByte, writeBytes_eq, stuff_eq_specStuff]

theorem specStuff_literal {b : Byte} (h7e : b ≠ 0x7E) (h7d : b ≠ 0x7D) : specStuff b = [b] :=
  (if_neg h7e).trans (if_neg h7d)

theorem writtenBytes_append (xs ys : List Event) : writtenBytes (xs ++ ys) = writtenBytes xs ++ writtenBytes ys := by
  induction xs with
  | nil => rfl
  | cons e rest ih => cases e <;> simp [writtenBytes, ih]

@[simp] theorem writtenBytes_map_wr (bytes : List Byte) : writtenBytes (bytes.map .wr) = bytes := by
  induction bytes with
  | nil => rfl
  | cons b rest ih => exact congrArg (b :: ·) ih

theorem writeBytes_writtenBytes (bytes : List Byte) (s : State) :
    writtenBytes (writeBytes bytes s).trace = writtenBytes s.trace ++ bytes := by
  rw [writeBytes_eq, writtenBytes_append, writtenBytes_map_wr]

theorem encodeAndSend_writtenBytes (type : Byte) (id : SensorId) (value : Value) (s : State) :
    writtenBytes (encodeAndSend type id value s).trace =
      writtenBytes s.trace ++ wireFrame (sentFrame type id value) := by
  simp [encodeAndSend_eq, writtenBytes_append, writtenBytes]

/-- What is written between two traces is the stuffed form of some bytes. -/
def WritesStuffed (before after : List Event) : Prop :=
  ∃ bytes : List Byte, writtenBytes after = writtenBytes before ++ bytes.flatMap stuff

theorem WritesStuffed.refl (trace : List Event) : WritesStuffed trace trace := ⟨[], (List.append_nil _).symm⟩

/-- A read between them writes nothing. -/
theorem WritesStuffed.of_read {before after : List Event} {b : Byte} (h : WritesStuffed (before ++ [.rd b]) after) :
    WritesStuffed before after := by
  simpa [WritesStuffed, writtenBytes_append, writtenBytes] using h

theorem WritesStuffed.keeps_noMarker {before after : List Event} (h : WritesStuffed before after)
    (hb : (0x7E : Byte) ∉ writtenBytes before) : (0x7E : Byte) ∉ writtenBytes after := by
  obtain ⟨bytes, h⟩ := h
  rw [h, List.mem_append, not_or]
  exact ⟨hb, (wellStuffed_flatMap_stuff bytes).1⟩

theorem Effect.writesStuffed {i : Instr} {s t : State} (he : Effect s i t) : WritesStuffed s.trace t.trace := by
  cases he with
  | sent type id value => exact ⟨frameBytes (sentFrame type id value), encodeAndSend_writtenBytes type id value s⟩
  | replied e =>
    exact ⟨frameBytes (sentFrame Config.typeSensor e.id e.value),
      encodeAndSend_writtenBytes Config.typeSensor e.id e.value s⟩
  | output b => exact ⟨[b], by rw [writeBytes_writtenBytes, List.flatMap_singleton]⟩
  | _ => exact .refl _

theorem Stepped.writesStuffed {s t : State} (h : Stepped s t) : WritesStuffed s.trace t.trace := by
  cases h with
  | unit u i t hu hd he => exact he.writesStuffed
  | call c rest t hu hp hv he => exact he.writesStuffed
  | input b rest env t hu hp hb hv he => exact he.writesStuffed.of_read
  | _ => exact .refl _

/-! ### Where a row stops (log 16, 17) -/

theorem next_or_refused_eq_refused_iff {p : Prop} [Decidable p] {t : State} {r : Refusal} :
    (if p then .next t else .refused r : Host.Outcome State Fault Refusal) = .refused r ↔ ¬p := by
  rw [ite_eq_right_iff]
  exact imp_congr_right fun _ => iff_of_false nofun not_false

section Stops

variable {b : Byte} {s : State}

theorem exec_rxMarker_refused :
    exec .rxMarker s = .refused (.conditionNotMet "RX_MARKER") ↔ s.fsm ≠ .idle :=
  next_or_refused_eq_refused_iff

theorem exec_rxDiscard_refused :
    exec (.rxDiscard b) s = .refused (.conditionNotMet "RX_DISCARD") ↔ ¬(s.fsm = .idle ∧ b ≠ 0x7E) :=
  next_or_refused_eq_refused_iff

theorem readEntry_eq_none_iff {slot : Byte} : readEntry slot s = none ↔ s.table.length ≤ slot.toNat :=
  List.getElem?_eq_none_iff

theorem exec_rxIdReply_noSlot (hc : s.fsm = .awaitingId ∧ b = s.busId ∧ s.activeSlotCount ≠ 0)
    (he : readEntry s.cursor s = none) : exec (.rxIdReply b) s = .fault (.noSuchSlot s.cursor) := by
  rw [exec, execRxIdReply, if_pos hc, he]

theorem exec_rxIdReply_off (hc : ¬(s.fsm = .awaitingId ∧ b = s.busId ∧ s.activeSlotCount ≠ 0)) :
    exec (.rxIdReply b) s = .refused (.conditionNotMet "RX_ID_REPLY") := by
  rw [exec, execRxIdReply, if_neg hc]

theorem exec_rxIdReply_refused :
    exec (.rxIdReply b) s = .refused (.conditionNotMet "RX_ID_REPLY") ↔
      ¬(s.fsm = .awaitingId ∧ b = s.busId ∧ s.activeSlotCount ≠ 0) := by
  refine ⟨fun h hc => ?_, exec_rxIdReply_off⟩
  cases he : readEntry s.cursor s with
  | none => exact nomatch (exec_rxIdReply_noSlot hc he).symm.trans h
  | some e =>
    obtain ⟨hf, rfl, hn⟩ := hc
    exact nomatch (exec_rxIdReply_matched hf hn he).symm.trans h

theorem exec_rxIdReply_fault :
    exec (.rxIdReply b) s = .fault (.noSuchSlot s.cursor) ↔
      s.fsm = .awaitingId ∧ b = s.busId ∧ s.activeSlotCount ≠ 0 ∧ s.table.length ≤ s.cursor.toNat := by
  constructor
  · intro h
    have hc : s.fsm = .awaitingId ∧ b = s.busId ∧ s.activeSlotCount ≠ 0 :=
      not_not.mp fun hc => nomatch (exec_rxIdReply_off hc).symm.trans h
    obtain ⟨hf, rfl, hn⟩ := hc
    refine ⟨hf, rfl, hn, readEntry_eq_none_iff.mp ?_⟩
    cases he : readEntry s.cursor s with
    | none => rfl
    | some e => exact nomatch (exec_rxIdReply_matched hf hn he).symm.trans h
  · rintro ⟨hf, hb, hn, hlen⟩
    exact exec_rxIdReply_noSlot ⟨hf, hb, hn⟩ (readEntry_eq_none_iff.mpr hlen)

theorem exec_rxIdNoslot_refused :
    exec (.rxIdNoslot b) s = .refused (.conditionNotMet "RX_ID_NOSLOT") ↔
      ¬(s.fsm = .awaitingId ∧ b = s.busId ∧ s.activeSlotCount = 0) :=
  next_or_refused_eq_refused_iff

theorem exec_rxIdMismatch_refused :
    exec (.rxIdMismatch b) s = .refused (.conditionNotMet "RX_ID_MISMATCH") ↔
      ¬(s.fsm = .awaitingId ∧ b ≠ s.busId) :=
  next_or_refused_eq_refused_iff

theorem exec_txLiteral_refused :
    exec (.txLiteral b) s = .refused (.conditionNotMet "TX_LITERAL") ↔ b = 0x7E ∨ b = 0x7D := by
  rw [exec, execTxLiteral, ← ite_not]
  exact next_or_refused_eq_refused_iff.trans not_not

end Stops

end Sys2Proof.Machine

/-! ### The obligations -/

namespace Sys2Proof.Proofs

open Sys2Proof.Machine Sys2Proof.Safety

/-- Settles O19: the write of byte 7 over the composite, and `computeCRC` by its closed form. -/
theorem sentFrameCarriesItsChecksum : Obligations.SentFrameCarriesItsChecksum := fun type id value =>
  ⟨frameByte_composite_seven type id value, take_frameBytes_sentFrame type id value,
    extractLsb'_setByte7_high _ _, frameBytes_sentFrame type id value⟩

/-- Settles O22: stuffing is well formed byte by byte. -/
theorem wireFrameHasNoMarker : Obligations.WireFrameHasNoMarker := fun c => wellStuffed_flatMap_stuff (frameBytes c)

/-- Settles O23: a wire frame is eight bytes and one more for each stuffed byte, of which the checksum is none when all before it
are. -/
theorem wireFrameLengthBounds : Obligations.WireFrameLengthBounds := by
  intro type id value
  have hcount := countP_specFrame_le type id value
  rw [length_wireFrame_sentFrame, frameByte_sentFrame_seven, frameBytes_sentFrame]
  refine ⟨by omega, by omega, ?_, fun h => not_or.mp (closedCrc_not_isEscaped (head := frameHead type id value) rfl h)⟩
  rintro rfl
  have hcount := countP_specFrame_typeSensor_le id value
  omega

/-- Settles O24: destuffing undoes the stuffing byte by byte, and a stream shows where each byte's wire bytes end. -/
theorem wireFrameDeterminesItsFrame : Obligations.WireFrameDeterminesItsFrame := by
  refine ⟨fun c => destuff_flatMap_stuff (frameBytes c), fun c d xs ys h => ?_⟩
  obtain ⟨hbytes, hrest⟩ := flatMap_stuff_append_inj (bs := frameBytes c) (ds := frameBytes d) rfl h
  exact ⟨frameBytes_injective hbytes, hrest⟩

/-- Settles O53: whatever a step writes is the stuffed form of some bytes. -/
theorem noStepWritesTheMarker : Obligations.NoStepWritesTheMarker :=
  fun s t h => (step_stepped s t h).writesStuffed.keeps_noMarker

/-- Settles O16. -/
theorem frameSensorDataFillsTheBuffer : Obligations.FrameSensorDataFillsTheBuffer :=
  fun id value crc _ => ⟨frameWord 0x10 id value crc, rfl, frameBytes_frameWord 0x10 id value crc⟩

/-- Settles O21: the stuffing of one byte is the table of R56. -/
theorem wireFrameStuffsEachByte : Obligations.WireFrameStuffsEachByte :=
  fun c => congrArg (frameBytes c).flatMap (funext stuff_eq_specStuff)

/-- Settles O28: each output row is the row of some byte, and writes the wire bytes of that byte. -/
theorem outputRowsSendTheirBytes : Obligations.OutputRowsSendTheirBytes := by
  refine ⟨fun s => ⟨exec_decodeTxByte_eq 0x7E s, exec_decodeTxByte_eq 0x7D s⟩, ?_, exec_decodeTxByte_eq⟩
  intro b s h7e h7d
  have h := exec_decodeTxByte_eq b s
  rwa [decodeTxByte_literal h7e h7d, specStuff_literal h7e h7d] at h

/-- Settles O34, one lemma for each row. -/
theorem rowsStopOffTheirCondition : Obligations.RowsStopOffTheirCondition := fun _ _ =>
  ⟨exec_rxMarker_refused, exec_rxDiscard_refused, exec_rxIdReply_refused, exec_rxIdReply_fault, exec_rxIdNoslot_refused,
    exec_rxIdMismatch_refused, exec_txLiteral_refused⟩

end Sys2Proof.Proofs
end

section
/-! Proofs of the statements about the CRC Engine: each point of one iteration, the closed form of the checksum and what it
depends on, and COMPUTE_CRC. -/

namespace Sys2Proof.Machine

open Safety

/-! ### The points of one iteration (40_crc.md R66, R69, R70) -/

/-- Adding a byte to an accumulator of at most 255 does not wrap. -/
theorem toNat_add_byte {acc : BitVec 16} (h : acc.toNat ≤ 255) (b : Byte) :
    (acc + b.zeroExtend 16).toNat = acc.toNat + b.toNat := by
  have hb := b.isLt
  rw [BitVec.toNat_add, BitVec.toNat_setWidth]
  omega

theorem toNat_add_byte_le {acc : BitVec 16} (h : acc.toNat ≤ 255) (b : Byte) : (acc + b.zeroExtend 16).toNat ≤ 510 := by
  have hb := b.isLt
  rw [toNat_add_byte h]
  omega

/-- Adding the high byte of a sum of at most 510 does not wrap. -/
theorem toNat_add_highByte {added : BitVec 16} (h : added.toNat ≤ 510) :
    (added + added >>> 8).toNat = added.toNat + added.toNat / 256 := by
  rw [BitVec.toNat_add, BitVec.toNat_ushiftRight, Nat.shiftRight_eq_div_pow]
  omega

theorem toNat_mask_le (x : BitVec 16) : (x &&& 0x00FF).toNat ≤ 255 := by
  rw [BitVec.toNat_and]
  exact Nat.and_le_right

theorem highByte_eq_zero {x : BitVec 16} (h : x.toNat ≤ 255) : x >>> 8 = 0 := by
  apply BitVec.eq_of_toNat_eq
  rw [BitVec.toNat_ushiftRight, Nat.shiftRight_eq_div_pow]
  exact Nat.div_eq_of_lt (by omega)

/-- A value of at most 255 has nothing to fold. -/
theorem fold_eq_self {x : BitVec 16} (h : x.toNat ≤ 255) : (x + x >>> 8) &&& 0x00FF = x := by
  apply BitVec.eq_of_toNat_eq
  rw [highByte_eq_zero h, add_zero, BitVec.toNat_and]
  exact Nat.and_two_pow_sub_one_of_lt_two_pow (n := 8) (by omega)

/-- An iteration is its first fold and mask, from any accumulator (40_crc.md R70). -/
theorem crcStep_eq_firstFold (acc : BitVec 16) (b : Byte) :
    crcStep acc b = ((acc + b.zeroExtend 16) + (acc + b.zeroExtend 16) >>> 8) &&& 0x00FF :=
  fold_eq_self (toNat_mask_le _)

/-! ### What the closed form depends on (40_crc.md R71, R72) -/

theorem onesSum_le (n : Nat) : onesSum n ≤ 255 := by
  unfold onesSum
  split <;> omega

theorem onesSum_eq_zero {n : Nat} : onesSum n = 0 ↔ n = 0 := by
  unfold onesSum
  split <;> omega

theorem onesSum_eq_255 {n : Nat} : onesSum n = 255 ↔ 0 < n ∧ 255 ∣ n := by
  unfold onesSum
  split <;> omega

theorem sum_toNat_le (bytes : List Byte) : (bytes.map BitVec.toNat).sum ≤ bytes.length * 255 := by
  have bound : ∀ n ∈ bytes.map BitVec.toNat, n ≤ 255 :=
    List.forall_mem_map.mpr fun b _ => Nat.le_of_lt_succ b.isLt
  simpa using List.sum_le_card_nsmul _ _ bound

theorem sum_frameBytes_le (c : Frame) : ((frameBytes c).map BitVec.toNat).sum ≤ 2040 := by
  have hlen : (frameBytes c).length = 8 := rfl
  have hle := sum_toNat_le (frameBytes c)
  omega

theorem sum_toNat_eq_zero {bytes : List Byte} : (bytes.map BitVec.toNat).sum = 0 ↔ ∀ b ∈ bytes, b = 0 := by
  simp only [List.sum_eq_zero_iff, List.forall_mem_map, BitVec.toNat_eq]
  rfl

/-- The checksum is 0xFF exactly when every byte is zero. -/
theorem closedCrc_eq_ff {bytes : List Byte} : closedCrc bytes = 0xFF ↔ ∀ b ∈ bytes, b = 0 := by
  have hff : (0xFF : Byte).toNat = 255 := rfl
  have hle := onesSum_le (bytes.map BitVec.toNat).sum
  rw [← sum_toNat_eq_zero, ← onesSum_eq_zero, BitVec.toNat_eq, closedCrc_toNat, hff]
  omega

/-- The checksum is 0x00 exactly when the sum of the bytes is a positive multiple of 255. -/
theorem closedCrc_eq_zero {bytes : List Byte} :
    closedCrc bytes = 0x00 ↔ 0 < (bytes.map BitVec.toNat).sum ∧ 255 ∣ (bytes.map BitVec.toNat).sum := by
  have hzero : (0x00 : Byte).toNat = 0 := rfl
  have hle := onesSum_le (bytes.map BitVec.toNat).sum
  rw [← onesSum_eq_255, BitVec.toNat_eq, closedCrc_toNat, hzero]
  omega

theorem closedCrc_perm {bytes others : List Byte} (h : bytes.Perm others) : closedCrc bytes = closedCrc others := by
  rw [closedCrc_eq, closedCrc_eq, (h.map BitVec.toNat).sum_eq]

theorem crcAccumulate_append_zero (bytes : List Byte) : crcAccumulate (bytes ++ [0]) = crcAccumulate bytes := by
  apply BitVec.eq_of_toNat_eq
  rw [crcAccumulate_toNat, crcAccumulate_toNat, List.map_append, List.sum_append]
  rfl

theorem frameBytes_eq_take_append_zero {c : Frame} (h : frameByte c 7 = 0) : frameBytes c = (frameBytes c).take 7 ++ [0] :=
  congrArg (fun b => (frameBytes c).take 7 ++ [b]) h

/-! ### COMPUTE_CRC (40_crc.md R66, R67) -/

theorem exec_computeCrc (c : Frame) (s : State) :
    exec (.computeCrc c) s =
      .next { s with codec := { s.codec with acc := crcAccumulate (frameBytes c), crcOut := computeCRC c } } := rfl

end Sys2Proof.Machine

/-! ### The obligations -/

namespace Sys2Proof.Proofs

open Sys2Proof.Machine Sys2Proof.Safety

/-- Settles O11: accumulator and result are the closed form, which says the rest of the sum of any bytes. -/
theorem crcHasItsClosedForm : Obligations.CrcHasItsClosedForm := by
  refine ⟨sum_frameBytes_le, fun c => crcAccumulate_toNat (frameBytes c), computeCRC_eq_closedCrc, ?_⟩
  simp only [computeCRC_eq_closedCrc]
  exact ⟨fun _ => closedCrc_eq_ff, fun _ => closedCrc_eq_zero, fun _ _ => closedCrc_perm⟩

/-- Settles O12, point by point from the bound between iterations. -/
theorem crcAccumulatorNeverWraps : Obligations.CrcAccumulatorNeverWraps := by
  intro bytes b
  have hacc := crcAccumulate_le bytes
  have hadded := toNat_add_byte_le hacc b
  refine ⟨hacc, toNat_add_byte hacc b, hadded, ?_⟩
  rintro added rfl
  have hfold := toNat_add_highByte hadded
  exact ⟨hfold, by omega⟩

/-- Settles O13: the first mask leaves nothing for the second fold. -/
theorem crcSecondFoldIsIdle : Obligations.CrcSecondFoldIsIdle := by
  intro acc b h
  refine ⟨?_, ?_⟩
  · rw [crcStep_toNat acc b h]
    split <;> split <;> omega
  · rintro folded rfl
    exact ⟨toNat_mask_le _, highByte_eq_zero (toNat_mask_le _), crcStep_eq_firstFold acc b⟩

/-- Settles O14: a zero byte at the end changes neither the accumulator nor the closed form. -/
theorem crcOfSevenBytes : Obligations.CrcOfSevenBytes := by
  intro c h
  have hbytes := frameBytes_eq_take_append_zero h
  constructor
  · exact (congrArg crcAccumulate hbytes).trans (crcAccumulate_append_zero _)
  · exact (computeCRC_eq_closedCrc c).trans ((congrArg closedCrc hbytes).trans (closedCrc_append_zero _))

/-- Settles O10: the accumulator over the eight bytes, and the result by its closed form. -/
theorem computeCrcWritesOnlyItsResult : Obligations.ComputeCrcWritesOnlyItsResult := fun c s =>
  ⟨crcAccumulate (frameBytes c), crcAccumulate_toNat (frameBytes c), by rw [exec_computeCrc, computeCRC_eq_closedCrc]⟩

end Sys2Proof.Proofs
end

section
/-! Proofs of the statements about the Frame Codec: the composite and its byte groups, the composite of a sign-extended value,
and what a transmission sends and leaves unchanged. -/

namespace Sys2Proof.Machine

open Safety

/-! ### Byte groups of a frame (20_memory.md R35, R36) -/

/-- Two bytes in little-endian order are 16 bits of the frame. -/
theorem frameByte_append_two (c : Frame) (k : Nat) :
    frameByte c (k + 1) ++ frameByte c k = c.extractLsb' (8 * k) 16 :=
  BitVec.extractLsb'_append_extractLsb'_eq_extractLsb' rfl

/-- Four bytes in little-endian order are 32 bits of the frame. -/
theorem frameByte_append_four (c : Frame) (k : Nat) :
    frameByte c (k + 3) ++ frameByte c (k + 2) ++ frameByte c (k + 1) ++ frameByte c k = c.extractLsb' (8 * k) 32 := by
  rw [BitVec.append_assoc, frameByte_append_two, frameByte_append_two]
  exact BitVec.extractLsb'_append_extractLsb'_eq_extractLsb' rfl

section FrameWord

variable (type : Byte) (id : SensorId) (value : Value) (crc : Byte)

theorem frameBytes_frameWord_eq_head :
    frameBytes (frameWord type id value crc) = frameHead type id value ++ [crc] :=
  frameBytes_frameWord type id value crc

theorem frameByte_frameWord_zero : frameByte (frameWord type id value crc) 0 = type :=
  Option.some.inj (congrArg (·[0]?) (frameBytes_frameWord type id value crc))

theorem frameByte_frameWord_one : frameByte (frameWord type id value crc) 1 = id.extractLsb' 0 8 :=
  Option.some.inj (congrArg (·[1]?) (frameBytes_frameWord type id value crc))

theorem frameByte_frameWord_seven : frameByte (frameWord type id value crc) 7 = crc :=
  Option.some.inj (congrArg (·[7]?) (frameBytes_frameWord type id value crc))

/-- Bytes 1 and 2 are the sensor id. -/
theorem frameByte_frameWord_id :
    frameByte (frameWord type id value crc) 2 ++ frameByte (frameWord type id value crc) 1 = id :=
  (frameByte_append_two _ 1).trans
    ((extractLsb'_frameWord_id type id value crc (start := 0) (by decide)).trans BitVec.extractLsb'_eq_self)

/-- Bytes 3 to 6 are the value. -/
theorem frameByte_frameWord_value :
    frameByte (frameWord type id value crc) 6 ++ frameByte (frameWord type id value crc) 5 ++
      frameByte (frameWord type id value crc) 4 ++ frameByte (frameWord type id value crc) 3 = value :=
  (frameByte_append_four _ 3).trans
    ((extractLsb'_frameWord_value type id value crc (start := 0) (by decide)).trans BitVec.extractLsb'_eq_self)

/-- The write of byte 7 is the write of the checksum field. -/
theorem setByte7_frameWord (b : Byte) :
    setByte7 (frameWord type id value crc) b = frameWord type id value b := by
  apply frameBytes_injective
  rw [frameBytes_setByte7, frameBytes_frameWord_eq_head, frameBytes_frameWord_eq_head]
  rfl

theorem computeCRC_frameWord :
    computeCRC (frameWord type id value crc) = closedCrc (frameHead type id value ++ [crc]) := by
  rw [computeCRC_eq_closedCrc, frameBytes_frameWord_eq_head]

theorem sentFrame_eq_frameWord :
    sentFrame type id value = frameWord type id value (computeCRC (composite type id value)) := by
  rw [sentFrame, composite_eq_frameWord, setByte7_frameWord]

/-- Byte 7 of the frame sent, set back to zero, gives the composite (41_frame_codec.md R83). -/
theorem setByte7_sentFrame_zero : setByte7 (sentFrame type id value) 0 = composite type id value := by
  rw [sentFrame_eq_frameWord, setByte7_frameWord, composite_eq_frameWord]

end FrameWord

/-! ### The composite of a sign-extended value (41_frame_codec.md R76) -/

section SignExtension

variable (type : Byte) (id : SensorId) {value : Value}

/-- A value that is not negative is extended by zeros either way. -/
theorem signExtended_eq_composite (h : value.msb = false) :
    type.zeroExtend 64 ||| (id.zeroExtend 64 <<< 8) ||| (value.signExtend 64 <<< 24) = composite type id value := by
  rw [BitVec.signExtend_eq_setWidth_of_msb_false h]
  rfl

/-- The sign of a negative value fills byte 7. -/
theorem signExtended_eq_frameWord (h : value.msb = true) :
    type.zeroExtend 64 ||| (id.zeroExtend 64 <<< 8) ||| (value.signExtend 64 <<< 24) = frameWord type id value 0xFF := by
  have ones : (0xFF : Byte) = BitVec.allOnes 8 := rfl
  apply BitVec.eq_of_getLsbD_eq
  intro i hi
  simp only [frameWord, ones, BitVec.getLsbD_append, BitVec.getLsbD_or, BitVec.getLsbD_shiftLeft,
    BitVec.truncate_eq_setWidth, BitVec.getLsbD_setWidth, BitVec.getLsbD_signExtend, BitVec.getLsbD_allOnes, h]
  grind

/-- Adding 255 to a sum that is not zero keeps its residue. -/
theorem onesSum_add_255 {n : Nat} (h : n ≠ 0) : onesSum (n + 255) = onesSum n := by
  unfold onesSum
  rw [if_neg (by omega), if_neg h]
  omega

/-- A byte 0xFF at the end does not count, unless all before it are zero. -/
theorem closedCrc_append_ff {bytes : List Byte} (h : ¬∀ b ∈ bytes, b = 0) :
    closedCrc (bytes ++ [0xFF]) = closedCrc bytes := by
  have hsum : ((bytes ++ [0xFF]).map BitVec.toNat).sum = (bytes.map BitVec.toNat).sum + 255 := by
    rw [List.map_append, List.sum_append]
    rfl
  rw [closedCrc_eq, closedCrc_eq, hsum, onesSum_add_255 (mt sum_toNat_eq_zero.mp h)]

/-- A negative value has its sign in byte 6. -/
theorem frameHead_not_zero_of_negative (h : value.msb = true) : ¬∀ b ∈ frameHead type id value, b = 0 := by
  intro hzero
  have hbyte : value.extractLsb' 24 8 = 0 := hzero _ (by simp [frameHead])
  have hsign : (value.extractLsb' 24 8).getLsbD 7 = value.msb := by
    rw [BitVec.getLsbD_extractLsb', BitVec.msb_eq_getLsbD_last]
    rfl
  rw [hbyte, h] at hsign
  exact absurd hsign (by decide)

/-- The sign in byte 7 does not reach the checksum. -/
theorem computeCRC_signExtended (h : value.msb = true) :
    computeCRC (frameWord type id value 0xFF) = computeCRC (composite type id value) := by
  rw [composite_eq_frameWord, computeCRC_frameWord, computeCRC_frameWord,
    closedCrc_append_ff (frameHead_not_zero_of_negative type id h), closedCrc_append_zero]

end SignExtension

/-! ### What a transmission leaves unchanged (41_frame_codec.md R74) -/

theorem encodeAndSend_frame (type : Byte) (id : SensorId) (value : Value) (s : State) :
    encodeAndSend type id value s = { s with
      dir := .rx
      codec := (encodeAndSend type id value s).codec
      transport := (encodeAndSend type id value s).transport
      trace := s.trace ++ specSendEvents type id value } := by
  rw [← encodeAndSend_trace, encodeAndSend_eq]

theorem encodeAndSend_input (type : Byte) (id : SensorId) (value : Value) (s : State) :
    (encodeAndSend type id value s).transport.input = s.transport.input := by
  rw [encodeAndSend_eq]
  rfl

end Sys2Proof.Machine

/-! ### The obligations -/

namespace Sys2Proof.Proofs

open Sys2Proof.Machine Sys2Proof.Safety

/-- Settles O17: the composite is the frame word with byte 7 zero, whose bytes are its fields. -/
theorem compositePacksTheOperands : Obligations.CompositePacksTheOperands := by
  intro type id value
  refine ⟨rfl, composite_eq_frameWord type id value, ?_⟩
  rw [composite_eq_frameWord]
  have hlow := congrArg₂ (· ++ ·) (frameByte_frameWord_one type id value 0) (frameByte_frameWord_zero type id value 0)
  exact ⟨frameByte_frameWord_zero type id value 0, hlow, frameByte_frameWord_id type id value 0,
    frameByte_frameWord_value type id value 0, frameByte_frameWord_seven type id value 0⟩

/-- Settles O20: a sign of 1 fills byte 7, which neither counts in the checksum nor outlives it; a sign of 0 is no difference. -/
theorem signExtensionIsInvisible : Obligations.SignExtensionIsInvisible := by
  rintro type id value c rfl
  cases hsign : value.msb with
  | false =>
    rw [signExtended_eq_composite type id hsign]
    exact ⟨nofun, rfl, rfl⟩
  | true =>
    have hcrc := computeCRC_signExtended type id hsign
    rw [signExtended_eq_frameWord type id hsign]
    refine ⟨fun _ => frameByte_frameWord_seven type id value 0xFF, hcrc, ?_⟩
    rw [hcrc, setByte7_frameWord, sentFrame_eq_frameWord]

/-- Settles O25: destuffing gives the bytes of the frame sent, which is the frame word of the operands and the checksum. -/
theorem transmissionDecodesBack : Obligations.TransmissionDecodesBack := by
  intro type id value
  refine ⟨_, _, _, _, _, _, _, _, destuff_flatMap_stuff (frameBytes (sentFrame type id value)), ?_, rfl⟩
  rw [setByte7_sentFrame_zero, sentFrame_eq_frameWord]
  exact frameFields_frameWord type id value _

/-- Settles O26: `exec` of the row is `encodeAndSend`. -/
theorem encodeAndSendTransmitsOneFrame : Obligations.EncodeAndSendTransmitsOneFrame := fun type id value s =>
  ⟨encodeAndSend type id value s, rfl, encodeAndSend_frame type id value s, encodeAndSend_input type id value s⟩

end Sys2Proof.Proofs
end

section
/-! Proofs of the statements about the Sensor Table: what SET_SENSOR_DATA answers, and which slots it changes. -/

namespace Sys2Proof.Machine

/-! ### The rejections of SET_SENSOR_DATA (42_sensor_table.md R85) -/

/-- The `S.init` check comes first, whatever the slot (60_exceptions.md R109, R113). -/
theorem exec_setSensorData_notInit (slot : Byte) (id : SensorId) (value : Value) {s : State} (hi : s.init = false) :
    exec (.setSensorData slot id value) s = .next { s with statuses := s.statuses ++ [.rejNotInit] } := by
  have hc : checkSetSensorData slot s = .rejNotInit := by simp [checkSetSensorData, hi]
  simp only [exec, execSetSensorData, hc]
  rfl

/-- A slot that does not exist (60_exceptions.md R112). -/
theorem exec_setSensorData_badSlot {slot : Byte} (id : SensorId) (value : Value) {s : State} (hi : s.init = true)
    (hs : s.table.length ≤ slot.toNat) :
    exec (.setSensorData slot id value) s = .next { s with statuses := s.statuses ++ [.rejBadSlot] } := by
  have hc : checkSetSensorData slot s = .rejBadSlot := by simp [checkSetSensorData, State.capacity, hi, hs]
  simp only [exec, execSetSensorData, hc]
  rfl

end Sys2Proof.Machine

/-! ### The obligations -/

namespace Sys2Proof.Proofs

open Sys2Proof.Machine

/-- Settles O3, one clause for each answer of the check. -/
theorem setSensorDataWritesOneEntryOrRejects : Obligations.SetSensorDataWritesOneEntryOrRejects :=
  fun slot id value _ => ⟨exec_setSensorData_accepted id value, exec_setSensorData_notInit slot id value,
    exec_setSensorData_badSlot id value⟩

/-- Settles O4: the table of the accepted answer is the one `writeEntry` leaves. -/
theorem setSensorDataChangesOneSlotOnly : Obligations.SetSensorDataChangesOneSlotOnly := by
  intro slot id value s hi hs
  refine ⟨_, exec_setSensorData_accepted id value hi hs, ?length, ?same, ?other⟩
  case length => exact writeEntry_length slot ⟨id, value⟩ s
  case same => exact readEntry_writeEntry_same slot ⟨id, value⟩ s hs
  case other => exact fun other hne => readEntry_writeEntry_other slot other ⟨id, value⟩ s hne

end Sys2Proof.Proofs
end

section
/-! Proofs of the statements about a step of the Poll State Machine: what an input byte does in each state, the replies and the
cursor, the loop of `poll` and its hold. -/

namespace Sys2Proof.Machine

open Safety

/-! ### The host's transactions (43_poll_fsm.md R91, R93) -/

theorem exec_initialize_accepted (busId : Byte) {n : Byte} {s : State} (hi : s.init = false)
    (hn : n.toNat ≤ s.table.length) : exec (.initializeDevice busId n) s = .next { s with
      init := true
      busId := busId
      activeSlotCount := n
      table := List.replicate s.table.length SensorEntry.zero
      cursor := 0
      fsm := .idle
      statuses := s.statuses ++ [.ok] } := by
  have hc : checkInitialize n s = .ok := by simp [checkInitialize, State.capacity, hi, hn.not_gt]
  simp only [exec, execInitialize, hc]
  rfl

/-- The `S.init` check comes first, whatever the count (60_exceptions.md R110, R113). -/
theorem exec_initialize_alreadyInit (busId n : Byte) {s : State} (hi : s.init = true) :
    exec (.initializeDevice busId n) s = .next { s with statuses := s.statuses ++ [.rejAlreadyInit] } := by
  have hc : checkInitialize n s = .rejAlreadyInit := by simp [checkInitialize, hi]
  simp only [exec, execInitialize, hc]
  rfl

/-- A count above `CAPACITY` (60_exceptions.md R111). -/
theorem exec_initialize_badCount (busId : Byte) {n : Byte} {s : State} (hi : s.init = false)
    (hn : s.table.length < n.toNat) :
    exec (.initializeDevice busId n) s = .next { s with statuses := s.statuses ++ [.rejBadCount] } := by
  have hc : checkInitialize n s = .rejBadCount := by simp [checkInitialize, State.capacity, hi, hn]
  simp only [exec, execInitialize, hc]
  rfl

theorem exec_poll_notInit {s : State} (hi : s.init = false) :
    exec .poll s = .next { s with statuses := s.statuses ++ [.rejNotInit] } := by
  have hc : checkPoll s = .rejNotInit := by simp [checkPoll, hi]
  simp only [exec, execPoll, hc]
  rfl

/-- With nothing to do `poll` returns at once. -/
theorem exec_poll_returned {s : State} (hi : s.init = true) (hf : s.fsm = .idle) (hb : s.transport.input = []) :
    exec .poll s = .next { s with polling := false, statuses := s.statuses ++ [.ok] } := by
  have hc : checkPoll s = .ok := by rw [checkPoll, hi, if_pos rfl]
  have ha : s.fsm = .idle ∧ available s = false := ⟨hf, by simp [available_eq, hb]⟩
  simp only [exec, execPoll, hc, if_pos ha]
  rfl

/-- With an ID byte to wait for `poll` enters its loop, also when no byte is available. -/
theorem exec_poll_entered_awaiting {s : State} (hi : s.init = true) (hf : s.fsm = .awaitingId) :
    exec .poll s = .next { s with polling := true } := by
  have hc : checkPoll s = .ok := by rw [checkPoll, hi, if_pos rfl]
  have ha : ¬(s.fsm = .idle ∧ available s = false) := fun h => nomatch hf.symm.trans h.1
  simp only [exec, execPoll, hc, if_neg ha]
  rfl

/-! ### What an input byte does (43_poll_fsm.md R97 to R101) -/

theorem exec_rxDiscard_idle {s : State} {b : Byte} (hf : s.fsm = .idle) (hb : b ≠ 0x7E) :
    exec (.rxDiscard b) s = .next s := if_pos ⟨hf, hb⟩

theorem exec_rxIdNoslot_matched {s : State} {b : Byte} (hf : s.fsm = .awaitingId) (hb : b = s.busId)
    (hn : s.activeSlotCount = 0) : exec (.rxIdNoslot b) s = .next { s with fsm := .idle } := if_pos ⟨hf, hb, hn⟩

theorem exec_rxIdMismatch_mismatched {s : State} {b : Byte} (hf : s.fsm = .awaitingId) (hb : b ≠ s.busId) :
    exec (.rxIdMismatch b) s = .next { s with fsm := .idle } := if_pos ⟨hf, hb⟩

/-- In `Idle` an input byte decides the state, and does nothing else. -/
theorem exec_decodeRxByte_idle {s : State} (b : Byte) (hf : s.fsm = .idle) :
    exec (decodeRxByte s.rxContext b) s = .next { s with fsm := if b = 0x7E then .awaitingId else .idle } := by
  by_cases hb : b = 0x7E
  · rw [decodeRxByte_idle_marker hf hb, if_pos hb]
    exact exec_rxMarker_idle hf
  · rw [decodeRxByte_idle_discard hf hb, if_neg hb, ← hf]
    exact exec_rxDiscard_idle hf hb

/-- In `AwaitingId` an input byte that calls for no reply ends the wait, and does nothing else. -/
theorem exec_decodeRxByte_unanswered {s : State} {b : Byte} (hf : s.fsm = .awaitingId)
    (hb : b ≠ s.busId ∨ s.activeSlotCount = 0) :
    exec (decodeRxByte s.rxContext b) s = .next { s with fsm := .idle } := by
  by_cases hid : b = s.busId
  · have hn := hb.resolve_left (not_not.mpr hid)
    rw [decodeRxByte_id_noslot hf hid hn]
    exact exec_rxIdNoslot_matched hf hid hn
  · rw [decodeRxByte_id_mismatch hf hid]
    exact exec_rxIdMismatch_mismatched hf hid

/-- What the oldest input byte, once read, can end in. -/
inductive ByteTaken (s : State) (b : Byte) : State → Prop where
  | idle (hf : s.fsm = .idle) : ByteTaken s b { s with fsm := if b = 0x7E then .awaitingId else .idle }
  | unanswered (hf : s.fsm = .awaitingId) (hb : b ≠ s.busId ∨ s.activeSlotCount = 0) :
      ByteTaken s b { s with fsm := .idle }
  | replied (e : SensorEntry) (hf : s.fsm = .awaitingId) (hb : b = s.busId) (hn : s.activeSlotCount ≠ 0)
      (he : readEntry s.cursor s = some e) : ByteTaken s b ((reply e s).setFsm .idle)

/-- The effect of the row that an input byte decodes to. -/
theorem Effect.byteTaken {s t : State} {b : Byte} (h : Effect s (decodeRxByte s.rxContext b) t) : ByteTaken s b t := by
  obtain ⟨hw, -, henc⟩ := decodeRxByte_encoded s.rxContext b
  generalize decodeRxByte s.rxContext b = i at h hw henc
  cases h with
  | marker hf =>
    cases henc
    exact .idle hf
  | discarded b' hf hb =>
    cases henc
    have hidle : ByteTaken s b { s with fsm := if b = 0x7E then .awaitingId else .idle } := .idle hf
    rwa [if_neg (wellFormed_rxDiscard.mp hw), ← hf] at hidle
  | replied e hf hn he =>
    cases henc
    exact .replied e hf rfl hn he
  | ignored i b' hf hi =>
    obtain ⟨rfl, -, hn⟩ | ⟨rfl, hb⟩ := hi <;> cases henc
    · exact .unanswered hf (.inr hn)
    · exact .unanswered hf (.inl hb)
  | rejected c => exact nomatch (encode_decodeHost _ c).2.2.symm.trans henc
  | codec i c hi => obtain ⟨f, rfl⟩ | ⟨id, v, k, rfl⟩ := hi <;> cases henc
  | output b' => exact nomatch (decodeTxByte_encoded _ b').2.2.symm.trans henc
  | _ => cases henc

/-! ### A reply (43_poll_fsm.md R99, R100) -/

/-- Everything a reply does, and the return to `Idle` after it. -/
theorem reply_setFsm_idle_eq (e : SensorEntry) (s : State) :
    (reply e s).setFsm .idle = { s with
      cursor := nextCursor s.cursor s.activeSlotCount
      fsm := .idle
      dir := .rx
      codec := Codec.reset
      transport := (reply e s).transport
      trace := s.trace ++ specReplyEvents e } := by
  rw [← reply_events, reply, encodeAndSend_eq]
  rfl

theorem reply_input (e : SensorEntry) (s : State) : (reply e s).transport.input = s.transport.input :=
  encodeAndSend_input Config.typeSensor e.id e.value s

theorem reply_output (e : SensorEntry) (s : State) : (reply e s).transport.output = [] := by
  rw [reply, encodeAndSend_eq]
  rfl

@[simp] theorem count_fl_map_wr (bytes : List Byte) : (bytes.map Event.wr).count .fl = 0 := by
  rw [List.count_eq_zero, List.mem_map]
  rintro ⟨b, -, h⟩
  cases h

@[simp] theorem replyCount_nil : replyCount [] = 0 := rfl

@[simp] theorem replyCount_append (xs ys : List Event) : replyCount (xs ++ ys) = replyCount xs + replyCount ys :=
  List.count_append

@[simp] theorem replyCount_read (b : Byte) (events : List Event) : replyCount (.rd b :: events) = replyCount events := by
  simp [replyCount]

@[simp] theorem replyCount_specReplyEvents (e : SensorEntry) : replyCount (specReplyEvents e) = 1 := by
  simp [replyCount, specReplyEvents, specSendEvents]

/-! ### The cursor (43_poll_fsm.md R100, R22) -/

/-- The cursor after an instruction: as before, its successor after a reply, or 0 after INITIALIZE. -/
theorem Effect.cursor {i : Instr} {s t : State} (he : Effect s i t) :
    t.cursor = s.cursor ∨
    (i = .rxIdReply s.busId ∧ s.fsm = .awaitingId ∧ 0 < s.activeSlotCount.toNat ∧
      t.cursor = nextCursor s.cursor s.activeSlotCount) ∨
    (∃ busId n, i = .initializeDevice busId n ∧ s.init = false ∧ t.cursor = 0) := by
  cases he with
  | configured busId n hi => exact .inr (.inr ⟨busId, n, rfl, hi, rfl⟩)
  | replied e hf hn => exact .inr (.inl ⟨rfl, hf, by bv_omega, rfl⟩)
  | sent type id value => exact .inl (by rw [encodeAndSend_eq])
  | output b => exact .inl (by rw [writeBytes_eq])
  | _ => exact .inl rfl

/-- The unit port gives neither a reply nor an INITIALIZE (30_encoding.md R60). -/
theorem Effect.keeps_cursor_of_unit {u : UnitCall} {i : Instr} {s t : State} (he : Effect s i t)
    (hd : decodeUnit u = .ok i) : t.cursor = s.cursor := by
  obtain ⟨-, -, henc⟩ := encode_decodeUnit s.rxContext hd
  obtain hc | ⟨rfl, -⟩ | ⟨busId, n, rfl, -⟩ := he.cursor
  · exact hc
  · cases henc
  · cases henc

/-- The cursor after a step. -/
theorem Stepped.cursor {s t : State} (h : Stepped s t) :
    t.cursor = s.cursor ∨
    (s.polling = true ∧ s.fsm = .awaitingId ∧ s.transport.input.head? = some s.busId ∧ 0 < s.activeSlotCount.toNat ∧
      t.cursor = nextCursor s.cursor s.activeSlotCount) ∨
    (∃ busId n rest, s.env = .call (.initializeDevice busId n) :: rest ∧ s.polling = false ∧ s.init = false ∧
      t.cursor = 0) ∨
    (∃ rest, s.env = .reset :: rest ∧ t.cursor = 0) := by
  cases h with
  | unit u i t hu hd he => exact .inl (he.keeps_cursor_of_unit hd)
  | call c rest t hu hp hv he =>
    obtain hc | ⟨hi, -⟩ | ⟨busId, n, hi, hinit, hc⟩ := he.cursor
    · exact .inl hc
    · exact nomatch (decodeHost_format c).symm.trans (congrArg Instr.format hi)
    · exact .inr (.inr (.inl ⟨busId, n, rest, decodeHost_eq_initializeDevice hi ▸ hv, hp, hinit, hc⟩))
  | input b rest env t hu hp hb hv he =>
    cases he.byteTaken with
    | replied e hf hid hn => exact .inr (.inl ⟨hp, hf, by rw [hb, hid]; rfl, by bv_omega, rfl⟩)
    | _ => exact .inl rfl
  | reset rest hu hv => exact .inr (.inr (.inr ⟨rest, hv, rfl⟩))
  | _ => exact .inl rfl

/-! ### Replies and markers (43_poll_fsm.md R103) -/

/-- With no unit request, a step gives no reply, or one, which ends the wait for the ID byte. -/
theorem Stepped.replyCount {s t : State} (h : Stepped s t) (hu : s.unit = none) :
    replyCount t.trace = replyCount s.trace ∨
    (replyCount t.trace = replyCount s.trace + 1 ∧ s.polling = true ∧ s.fsm = .awaitingId ∧ t.fsm = .idle ∧
      s.transport.input.head? = some s.busId ∧ 0 < s.activeSlotCount.toNat) := by
  cases h with
  | unit u i t hu' => exact nomatch hu.symm.trans hu'
  | call c rest t _ _ _ he =>
    obtain ht | ⟨e, hc, -⟩ := he.silent_or_reply (.inl (decodeHost_format c))
    · exact .inl (congrArg Safety.replyCount ht)
    · exact nomatch (decodeHost_format c).symm.trans (congrArg Instr.format hc)
  | input b rest env t _ hp hb hv he =>
    cases he.byteTaken with
    | replied e hf hid hn =>
      refine .inr ⟨?_, hp, hf, rfl, by rw [hb, hid]; rfl, by bv_omega⟩
      rw [State.setFsm_trace, reply_events]
      simp
    | _ => exact .inl (by simp)
  | _ => exact .inl rfl

/-- The state of the Poll State Machine after an instruction: as before, `Idle`, or as a marker leaves it. -/
theorem Effect.fsm {i : Instr} {s t : State} (he : Effect s i t) :
    t.fsm = s.fsm ∨ t.fsm = .idle ∨ i = .rxMarker := by
  cases he with
  | sent type id value => exact .inl (by rw [encodeAndSend_eq])
  | output b => exact .inl (by rw [writeBytes_eq])
  | marker => exact .inr (.inr rfl)
  | configured => exact .inr (.inl rfl)
  | replied => exact .inr (.inl rfl)
  | ignored => exact .inr (.inl rfl)
  | _ => exact .inl rfl

/-- Only a marker takes the machine from `Idle` to `AwaitingId`. -/
theorem Effect.rxMarker_of_fsm {i : Instr} {s t : State} (he : Effect s i t) (hf : s.fsm = .idle)
    (ht : t.fsm = .awaitingId) : i = .rxMarker := by
  obtain h | h | h := he.fsm
  · exact nomatch ht.symm.trans (h.trans hf)
  · exact nomatch ht.symm.trans h
  · exact h

/-- A step enters `AwaitingId` only by reading a marker in a `poll`. -/
theorem Stepped.marker_read {s t : State} (h : Stepped s t) (hu : s.unit = none) (hf : s.fsm = .idle)
    (ht : t.fsm = .awaitingId) : s.polling = true ∧ s.transport.input.head? = some 0x7E := by
  cases h with
  | unit u i t hu' => exact nomatch hu.symm.trans hu'
  | call c rest t _ _ _ he =>
    exact nomatch (decodeHost_format c).symm.trans (congrArg Instr.format (he.rxMarker_of_fsm hf ht))
  | input b rest env t _ hp hb hv he =>
    obtain ⟨-, -, henc⟩ := decodeRxByte_encoded s.rxContext b
    rw [he.rxMarker_of_fsm hf ht] at henc
    cases henc
    exact ⟨hp, by rw [hb]; rfl⟩
  | abandoned => cases ht
  | reset => cases ht
  | _ => exact nomatch hf.symm.trans ht

/-! ### The end of a `poll` (43_poll_fsm.md R94, R95) -/

/-- Only POLL touches whether a `poll` is in progress. -/
theorem Effect.keeps_polling {i : Instr} {s t : State} (he : Effect s i t) (hi : i.format ≠ .host) :
    t.polling = s.polling := by
  cases he with
  | returned => exact absurd rfl hi
  | entered => exact absurd rfl hi
  | sent type id value => rw [encodeAndSend_eq]
  | replied e => rw [reply_setFsm_idle_eq]
  | output b => rw [writeBytes_eq]
  | _ => rfl

/-- A step that ends a `poll` in progress and is no reset is its return. -/
theorem Stepped.pollEnd {s t : State} (h : Stepped s t) (hp : s.polling = true) (ht : t.polling = false)
    (hr : s.env.head? ≠ some .reset) :
    s.fsm = .idle ∧ t.fsm = .idle ∧ s.transport.input = [] ∧ t.transport.input = [] ∧
      t.statuses = s.statuses ++ [.ok] ∧ t.trace = s.trace := by
  have goesOn {p : Bool} (h : p = s.polling) (hf : p = false) : False := nomatch hp.symm.trans (h.symm.trans hf)
  cases h with
  | returned env hu _ hb hf hv => exact ⟨hf, hf, hb, hb, rfl, rfl⟩
  | unit u i t hu hd he => exact (goesOn (he.keeps_polling (decodeUnit_format hd)) ht).elim
  | call c rest t hu hp' => exact nomatch hp.symm.trans hp'
  | input b rest env t hu _ hb hv he =>
    exact (goesOn (he.keeps_polling (decodeRxByte_format s.rxContext b ▸ by decide)) ht).elim
  | reset rest hu hv =>
    rw [hv] at hr
    exact absurd rfl hr
  | _ => exact (goesOn rfl ht).elim

/-! ### A pass of the loop with no byte available (43_poll_fsm.md R93, R102) -/

section Drained

variable {s : State} (hu : s.unit = none) (hp : s.polling = true) (hb : s.transport.input = [])
include hu hp hb

/-- In `Idle` the call returns, whatever the move that leaves the turn to the block. -/
theorem step_pollReturn {env : List EnvMove} (hf : s.fsm = .idle) (ht : BlockTurn s.env env) :
    step s = .next { s with env := env, polling := false, statuses := s.statuses ++ [.ok] } := by
  have hh : holding s = false := by simp [holding, hf]
  have hr : (if s.fsm = .idle then pollReturn (s.setEnv env) else s.setEnv env) = pollReturn (s.setEnv env) := if_pos hf
  apply step_quiet
  rw [nextMove_blockTurn s env hu hp hh ht, blockMove_nil (s.setEnv env) hp hb, State.setEnv_fsm, hr]
  rfl

variable (hf : s.fsm = .awaitingId)
include hf

omit hu in
theorem holding_of_drained : holding s = true := by
  simp [holding, available_eq, hp, hf, hb]

omit hu in
theorem blockMove_hold (env : List EnvMove) : blockMove (s.setEnv env) = .quiet (s.setEnv env) := by
  rw [blockMove_nil (s.setEnv env) hp hb, State.setEnv_fsm, if_neg (by rw [hf]; decide)]

/-- In `AwaitingId` the call holds, with no move to come or a host call, which waits for the `poll` (log 11, 27). -/
theorem step_hold (hv : s.env = [] ∨ ∃ c rest, s.env = .call c :: rest) : step s = .next s := by
  have hm : nextMove s = blockMove s := by
    obtain hv | ⟨c, rest, hv⟩ := hv
    · simp only [nextMove, hu, hv]
    · simp only [nextMove, hu, hv, hp, if_true]
  exact step_quiet s s (hm.trans (blockMove_hold hp hb hf s.env))

theorem step_hold_wait {rest : List EnvMove} (hv : s.env = .wait :: rest) : step s = .next { s with env := rest } := by
  have hm : nextMove s = blockMove (s.setEnv rest) := by simp only [nextMove, hu, hv]
  exact step_quiet s (s.setEnv rest) (hm.trans (blockMove_hold hp hb hf rest))

/-- An `rx` line is due in the hold (30_encoding.md R65). -/
theorem step_hold_rx {bytes : List Byte} {rest : List EnvMove} (hv : s.env = .rx bytes :: rest) :
    step s = .next { s with env := rest, transport := { s.transport with input := s.transport.input ++ bytes } } := by
  have hw : waiting s = true := by rw [waiting, holding_of_drained hp hb hf, Bool.or_true]
  exact step_quiet s (deliver bytes (s.setEnv rest)) (by simp only [nextMove, hu, hv, hw, if_true])

/-- The timeout policy ends the hold, where there is one. -/
theorem step_hold_abandon {rest : List EnvMove} (hv : s.env = .abandon :: rest) :
    step s = .next { s with env := rest, fsm := if s.params.idWaitAbandon then .idle else .awaitingId } := by
  have hm : nextMove s = .quiet (abandonWait (s.setEnv rest)) := by
    simp only [nextMove, hu, hv, holding_of_drained hp hb hf, if_true]
  rw [step_quiet s _ hm, abandonWait, State.setEnv_params, ← hf]
  split <;> rfl

end Drained

theorem step_reset {s : State} {rest : List EnvMove} (hu : s.unit = none) (hv : s.env = .reset :: rest) :
    step s = .next (resetBlock (s.setEnv rest)) :=
  step_quiet s (resetBlock (s.setEnv rest)) (by simp only [nextMove, hu, hv])

end Sys2Proof.Machine

namespace Sys2Proof.Proofs

open Sys2Proof.Machine Sys2Proof.Safety

/-- Settles O9: of everything a step can do, only the return ends a `poll`, and a reset. -/
theorem pollReturnsOnlyIdleAndDrained : Obligations.PollReturnsOnlyIdleAndDrained :=
  fun s t h => (step_stepped s t h).pollEnd

/-- Settles O43: the cursor after an instruction, and after whatever a step can do. -/
theorem cursorMovesOnlyOnReply : Obligations.CursorMovesOnlyOnReply :=
  ⟨fun i s t h => (exec_effect i s t h).cursor, fun s t h => (step_stepped s t h).cursor⟩

/-- Settles O46: the replies of whatever a step can do, and how it enters `AwaitingId`. -/
theorem atMostOneReplyPerMarker : Obligations.AtMostOneReplyPerMarker := fun s t hu h =>
  ⟨(step_stepped s t h).replyCount hu, (step_stepped s t h).marker_read hu⟩

/-- Settles O31: everything a reply does. -/
theorem matchedIdByteReplies : Obligations.MatchedIdByteReplies := by
  rintro s b e hf rfl hn he
  refine ⟨_, exec_rxIdReply_matched hf (by bv_omega) he, ?_, reply_input e s, reply_output e s⟩
  rw [reply_setFsm_idle_eq]
  rfl

/-- Settles O2, one clause for each answer of the check. -/
theorem initializeConfiguresOrRejects : Obligations.InitializeConfiguresOrRejects := fun busId n _ =>
  ⟨exec_initialize_accepted busId, exec_initialize_alreadyInit busId n, exec_initialize_badCount busId⟩

/-- Settles O30, one lemma for each row, and one for the row that a byte decodes to. -/
theorem idleByteEffects : Obligations.IdleByteEffects := fun _ b hf =>
  ⟨exec_rxMarker_idle hf, exec_rxDiscard_idle hf, exec_decodeRxByte_idle b hf⟩

/-- Settles O5, one lemma for each answer of the check and for each pass of the loop. -/
theorem pollFollowsItsLoop : Obligations.PollFollowsItsLoop :=
  ⟨fun _ => ⟨exec_poll_notInit, exec_poll_returned,
      fun hi h => h.elim (exec_poll_entered_awaiting hi) (exec_poll_entered hi)⟩,
    fun _ _ hu hp ht => ⟨fun hf hb => step_pollReturn hu hp hb hf ht, fun _ _ hb => step_input hu hp hb ht⟩,
    fun _ hu hp hf hb => step_hold hu hp hb hf⟩

/-- Settles O35, one lemma for each move that can be due. -/
theorem holdEndsOnlyByBytesAbandonOrReset : Obligations.HoldEndsOnlyByBytesAbandonOrReset := by
  intro s hu hp hf hb
  refine ⟨fun hv => step_hold hu hp hb hf (.inl hv), fun c rest hv => step_hold hu hp hb hf (.inr ⟨c, rest, hv⟩),
    fun _ => step_hold_wait hu hp hb hf, ?arrival, ?echo, fun _ => step_hold_abandon hu hp hb hf, ?reset⟩
  case arrival =>
    rintro bytes rest (hv | hv)
    · simpa [hb] using step_hold_rx hu hp hb hf hv
    · simpa [hb] using step_rxNow hu hv
  case echo =>
    intro n rest hv
    simpa [hb] using step_echo hu hv
  case reset => exact fun rest hv => ⟨_, step_reset hu hv, rfl, rfl, rfl, rfl, rfl⟩

end Sys2Proof.Proofs
end

section
/-! Proofs of the statements about runs of a `poll`: the bytes that call for no reply, the closed-form `poll` beside the machine's,
the order of the replies, and how the input is divided. -/

namespace Sys2Proof.Machine

open Safety

/-! ### Runs that only discard (43_poll_fsm.md R97, R101, R106) -/

/-- A byte read in `Idle` that is no marker. -/
theorem step_discard {s : State} {b : Byte} {input : List Byte} (hu : s.unit = none) (hv : s.env = [])
    (hp : s.polling = true) (hf : s.fsm = .idle) (hb : s.transport.input = b :: input) (hm : b ≠ 0x7E) :
    step s = .next { s with
      transport := { s.transport with input := input }
      trace := s.trace ++ [.rd b] } := by
  rw [step_input (env := s.env) hu hp hb (.inl ⟨hv, hv⟩), decodeRxByte_idle_discard hf hm]
  exact exec_rxDiscard_idle hf hm

/-- Bytes without a marker, read in `Idle`, are all discarded. -/
theorem run_discards {bytes : List Byte} (hm : (0x7E : Byte) ∉ bytes) :
    ∀ s : State, s.unit = none → s.env = [] → s.polling = true → s.fsm = .idle → s.transport.input = bytes →
      Sys2Proof.core.run bytes.length s = .next { s with
        transport := { s.transport with input := [] }
        trace := s.trace ++ bytes.map Event.rd } := by
  induction bytes with
  | nil =>
    intro s _ _ _ _ hb
    have htransport : ({ s.transport with input := [] } : Transport) = s.transport := by rw [← hb]
    simp [run_zero, htransport]
  | cons b rest ih =>
    intro s hu hv hp hf hb
    rw [List.mem_cons, not_or] at hm
    rw [List.length_cons, run_succ _ s _ (step_discard hu hv hp hf hb (Ne.symm hm.1))]
    simpa using ih hm.2 { s with
      transport := { s.transport with input := rest }
      trace := s.trace ++ [.rd b] } hu hv hp hf rfl

/-- A marker and a byte that calls for no reply, read from `Idle`. -/
theorem run_unanswered {s : State} {b : Byte} {rest : List Byte} (hu : s.unit = none) (hv : s.env = [])
    (hp : s.polling = true) (hf : s.fsm = .idle) (hb : s.transport.input = 0x7E :: b :: rest)
    (hid : b ≠ s.busId ∨ s.activeSlotCount = 0) : Sys2Proof.core.run 2 s = .next { s with
      transport := { s.transport with input := rest }
      trace := s.trace ++ [.rd 0x7E, .rd b] } := by
  have marker := step_marker (env := s.env) hu hp hf hb (.inl ⟨hv, hv⟩)
  have idByte := (step_input (s := { s with
    fsm := .awaitingId
    transport := { s.transport with input := b :: rest }
    trace := s.trace ++ [.rd 0x7E] }) (env := s.env) hu hp rfl (.inl ⟨hv, hv⟩)).trans
      (exec_decodeRxByte_unanswered (s := { s with
        fsm := .awaitingId
        transport := { s.transport with input := rest }
        trace := s.trace ++ [.rd 0x7E] ++ [.rd b] }) rfl hid)
  rw [run_succ _ _ _ marker, run_succ _ _ _ idByte, run_zero, ← hf, List.append_assoc]
  rfl

/-! ### The closed-form `poll` (43_poll_fsm.md R97 to R100) -/

section ClosedForm

variable {busId : Byte} {n : Nat} {table : Table} {v : PollView} {b : Byte}

theorem specPollByte_idle (hf : v.fsm = .idle) : specPollByte busId n table v b =
    { v with fsm := if b = 0x7E then .awaitingId else .idle, events := v.events ++ [.rd b] } := by
  simp only [specPollByte, hf]

theorem specPollByte_unanswered (hf : v.fsm = .awaitingId) (hb : ¬(b = busId ∧ 0 < n)) :
    specPollByte busId n table v b = { v with fsm := .idle, events := v.events ++ [.rd b] } := by
  simp only [specPollByte, hf, if_neg hb]

theorem specPollByte_replied (hf : v.fsm = .awaitingId) (hb : b = busId ∧ 0 < n) :
    specPollByte busId n table v b =
      { fsm := .idle
        cursor := (v.cursor + 1) % n
        events := v.events ++ .rd b :: specReplyEvents (table.getD v.cursor SensorEntry.zero) } := by
  simp only [specPollByte, hf, if_pos hb]

end ClosedForm

/-- The same view, with earlier events before its own. -/
def eventsBefore (before : List Event) (v : PollView) : PollView := { v with events := before ++ v.events }

theorem specPollByte_eventsBefore (busId : Byte) (n : Nat) (table : Table) (before : List Event) (v : PollView) (b : Byte) :
    specPollByte busId n table (eventsBefore before v) b = eventsBefore before (specPollByte busId n table v b) := by
  cases hf : v.fsm with
  | idle =>
    rw [specPollByte_idle hf, specPollByte_idle (v := eventsBefore before v) hf]
    simp [eventsBefore]
  | awaitingId =>
    by_cases hb : b = busId ∧ 0 < n
    · rw [specPollByte_replied hf hb, specPollByte_replied (v := eventsBefore before v) hf hb]
      simp [eventsBefore]
    · rw [specPollByte_unanswered hf hb, specPollByte_unanswered (v := eventsBefore before v) hf hb]
      simp [eventsBefore]

/-- The closed-form `poll` does not read the events so far. -/
theorem specPoll_eventsBefore (busId : Byte) (n : Nat) (table : Table) (before : List Event) (v : PollView)
    (bytes : List Byte) :
    specPoll busId n table (eventsBefore before v) bytes = eventsBefore before (specPoll busId n table v bytes) :=
  List.foldl_hom _ fun v b => specPollByte_eventsBefore busId n table before v b

/-! ### The machine's `poll` beside it -/

/-- What a `poll` changes of `s`, the whole trace as its events. -/
def pollView (s : State) : PollView := ⟨s.fsm, s.cursor.toNat, s.trace⟩

/-- The closed-form `poll` from where `s` stands. -/
def specPollFrom (s : State) (bytes : List Byte) : PollView :=
  specPoll s.busId s.activeSlotCount.toNat s.table (pollView s) bytes

theorem specPollFrom_input (s : State) : specPollFrom s s.transport.input = eventsBefore s.trace (specPollOf s) := by
  rw [specPollOf, ← specPoll_eventsBefore, eventsBefore, List.append_nil]
  rfl

/-- Of the block, only what a `poll` changes differs. -/
def DiffersByPoll (s t : State) : Prop :=
  t = { s with fsm := t.fsm, cursor := t.cursor, trace := t.trace, transport := t.transport }

theorem DiffersByPoll.trans {s t u : State} (h : DiffersByPoll s t) (h' : DiffersByPoll t u) : DiffersByPoll s u :=
  Eq.trans h' (by rw [show t = _ from h])

section

variable {s t : State} (h : DiffersByPoll s t)
include h

theorem DiffersByPoll.busId : t.busId = s.busId := (congrArg State.busId h :)
theorem DiffersByPoll.activeSlotCount : t.activeSlotCount = s.activeSlotCount := (congrArg State.activeSlotCount h :)
theorem DiffersByPoll.table : t.table = s.table := (congrArg State.table h :)
theorem DiffersByPoll.polling : t.polling = s.polling := (congrArg State.polling h :)
theorem DiffersByPoll.env : t.env = s.env := (congrArg State.env h :)

end

/-- A closed-form `poll` goes on from where its first bytes have led. -/
theorem DiffersByPoll.specPollFrom {s t : State} {bytes : List Byte} (h : DiffersByPoll s t)
    (hv : pollView t = specPollFrom s bytes) (more : List Byte) :
    specPollFrom t more = specPollFrom s (bytes ++ more) := by
  rw [Machine.specPollFrom, hv, h.busId, h.activeSlotCount, h.table]
  exact List.foldl_append.symm

theorem ByteTaken.input {s t : State} {b : Byte} (h : ByteTaken s b t) : t.transport.input = s.transport.input := by
  cases h with
  | replied e => exact reply_input e s
  | _ => rfl

theorem ByteTaken.differsByPoll {s t : State} {b : Byte} (h : ByteTaken s b t) (hs : Inv s) : DiffersByPoll s t := by
  cases h with
  | replied e => rw [DiffersByPoll, reply_setFsm_idle_eq, hs.dir_rx, hs.codec_clear]
  | _ => rfl

theorem nextCursor_toNat {cursor n : Byte} (hn : 0 < n.toNat) :
    (nextCursor cursor n).toNat = (cursor.toNat + 1) % n.toNat := by
  have hm := Nat.mod_lt (cursor.toNat + 1) hn
  rw [nextCursor, BitVec.toNat_ofNat, Nat.mod_eq_of_lt (hm.trans n.isLt)]

/-- One input byte does to the block what the closed form says. -/
theorem ByteTaken.pollView {s t : State} {b : Byte} {before : List Event} (h : ByteTaken s b t)
    (htrace : s.trace = before ++ [.rd b]) :
    pollView t = specPollByte s.busId s.activeSlotCount.toNat s.table ⟨s.fsm, s.cursor.toNat, before⟩ b := by
  cases h with
  | idle hf =>
    rw [specPollByte_idle hf, ← htrace]
    rfl
  | unanswered hf hb =>
    rw [specPollByte_unanswered hf (by bv_omega), ← htrace]
    rfl
  | replied e hf hb hn he =>
    have hpos : 0 < s.activeSlotCount.toNat := by bv_omega
    have hentry : s.table.getD s.cursor.toNat SensorEntry.zero = e := by
      rw [List.getD_eq_getElem?_getD, show s.table[s.cursor.toNat]? = some e from he, Option.getD_some]
    rw [specPollByte_replied hf ⟨hb, hpos⟩, hentry, ← nextCursor_toNat hpos, reply_setFsm_idle_eq, Machine.pollView, htrace,
      List.append_assoc]
    rfl

/-- `t` is where a `poll` in progress gets from `s` by reading these bytes. -/
structure Reads (s : State) (bytes : List Byte) (t : State) : Prop where
  inv : Inv t
  differs : DiffersByPoll s t
  input : s.transport.input = bytes ++ t.transport.input
  view : pollView t = specPollFrom s bytes

theorem Reads.refl {s : State} (h : Inv s) : Reads s [] s := ⟨h, rfl, rfl, rfl⟩

theorem Reads.trans {s t u : State} {xs ys : List Byte} (h : Reads s xs t) (h' : Reads t ys u) : Reads s (xs ++ ys) u where
  inv := h'.inv
  differs := h.differs.trans h'.differs
  input := by rw [h.input, h'.input, List.append_assoc]
  view := h'.view.trans (h.differs.specPollFrom h.view ys)

/-- A `poll` in progress reads the oldest byte available, if the move that is first in the schedule, if any, stays first. -/
theorem step_reads {s : State} {b : Byte} {rest : List Byte} (h : Inv s) (hp : s.polling = true)
    (hb : s.transport.input = b :: rest) (ht : BlockTurn s.env s.env) : ∃ t, step s = .next t ∧ Reads s [b] t := by
  obtain ⟨t, hexec⟩ := exec_decodeRxByte_answers (s := { s with
    env := s.env
    transport := { s.transport with input := rest }
    trace := s.trace ++ [.rd b] }) b h.cursorHasSlot
  have hstep : step s = .next t := (step_input h.unit_none hp hb ht).trans hexec
  have htaken := (exec_effect _ _ _ hexec).byteTaken
  exact ⟨t, hstep, {
    inv := h.of_stepped (step_stepped s t hstep)
    differs := htaken.differsByPoll (h.of_sameBlock rfl)
    input := by rw [htaken.input, hb]; rfl
    view := htaken.pollView rfl }⟩

/-- It reads every byte available, one a step. -/
theorem run_reads (bytes : List Byte) : ∀ s : State, Inv s → s.polling = true → BlockTurn s.env s.env →
    s.transport.input = bytes → ∃ t, Sys2Proof.core.run bytes.length s = .next t ∧ Reads s bytes t := by
  induction bytes with
  | nil => exact fun s h _ _ _ => ⟨s, rfl, .refl h⟩
  | cons b rest ih =>
    intro s h hp ht hb
    obtain ⟨u, hstep, hu⟩ := step_reads h hp hb ht
    have hrest : u.transport.input = rest := (List.cons.inj (hu.input.symm.trans hb)).2
    obtain ⟨t, hrun, hreads⟩ := ih u hu.inv (hu.differs.polling.trans hp) (hu.differs.env ▸ ht) hrest
    exact ⟨t, (run_succ rest.length s u hstep).trans hrun, hu.trans hreads⟩

/-- Where a `poll` that has read every byte available stands, field by field of the closed form. -/
theorem Reads.specPollOf {s t : State} (h : Reads s s.transport.input t) :
    t.fsm = (specPollOf s).fsm ∧ t.cursor.toNat = (specPollOf s).cursor ∧
      t.trace = s.trace ++ (specPollOf s).events := by
  have hv := h.view.trans (specPollFrom_input s)
  exact ⟨congrArg PollView.fsm hv, congrArg PollView.cursor hv, congrArg PollView.events hv⟩

theorem Reads.input_nil {s t : State} (h : Reads s s.transport.input t) : t.transport.input = [] :=
  List.append_right_eq_self.mp h.input.symm

/-- With no byte left and no move due, the next step returns in `Idle` and holds in `AwaitingId`. -/
theorem step_drained {s : State} (hu : s.unit = none) (hp : s.polling = true) (hv : s.env = [])
    (hb : s.transport.input = []) : step s =
      .next (if s.fsm = .idle then { s with polling := false, statuses := s.statuses ++ [.ok] } else s) := by
  obtain hf | hf : s.fsm = .idle ∨ s.fsm = .awaitingId := by cases s.fsm <;> simp
  · rw [if_pos hf]
    exact step_pollReturn hu hp hb hf (env := s.env) (.inl ⟨hv, hv⟩)
  · rw [if_neg (by rw [hf]; decide)]
    exact step_hold hu hp hb hf (.inl hv)

/-! ### The order of the replies (43_poll_fsm.md R104) -/

/-- The wire bytes of a reply with the entry in a slot. -/
def slotWire (table : Table) (slot : Nat) : List Byte :=
  (specFrame 0x10 (table.getD slot SensorEntry.zero).id (table.getD slot SensorEntry.zero).value).flatMap specStuff

theorem writtenBytes_specReplyEvents (e : SensorEntry) :
    writtenBytes (specReplyEvents e) = (specFrame 0x10 e.id e.value).flatMap specStuff := by
  simp [specReplyEvents, specSendEvents, writtenBytes, writtenBytes_append]

/-- The replies so far took the slots in turn from `first`, and the cursor is at the next one. -/
def TakesTurns (first n : Nat) (table : Table) (v : PollView) : Prop :=
  v.cursor = (first + replyCount v.events) % n ∧
  writtenBytes v.events = (List.range (replyCount v.events)).flatMap fun j => slotWire table ((first + j) % n)

/-- A byte that calls for no reply leaves the turn where it is. -/
theorem TakesTurns.read {first n : Nat} {table : Table} {v : PollView} (h : TakesTurns first n table v) (fsm : Fsm)
    (b : Byte) : TakesTurns first n table { v with fsm := fsm, events := v.events ++ [.rd b] } := by
  simpa [TakesTurns, writtenBytes_append, writtenBytes] using h

/-- A reply takes the slot at the cursor, and the next one has its turn. -/
theorem TakesTurns.reply {first n : Nat} {table : Table} {v : PollView} (h : TakesTurns first n table v) (b : Byte) :
    TakesTurns first n table {
      fsm := .idle
      cursor := (v.cursor + 1) % n
      events := v.events ++ .rd b :: specReplyEvents (table.getD v.cursor SensorEntry.zero) } := by
  obtain ⟨hc, hw⟩ := h
  constructor
  · simp [hc, Nat.add_assoc]
  · simp [writtenBytes_append, writtenBytes, writtenBytes_specReplyEvents, hw, List.range_succ, slotWire, hc]

theorem TakesTurns.specPollByte {first n : Nat} {table : Table} {v : PollView} (h : TakesTurns first n table v)
    (busId b : Byte) : TakesTurns first n table (specPollByte busId n table v b) := by
  cases hf : v.fsm with
  | idle =>
    rw [specPollByte_idle hf]
    exact h.read _ b
  | awaitingId =>
    by_cases hb : b = busId ∧ 0 < n
    · rw [specPollByte_replied hf hb]
      exact h.reply b
    · rw [specPollByte_unanswered hf hb]
      exact h.read _ b

theorem TakesTurns.specPoll {first n : Nat} {table : Table} {v : PollView} (h : TakesTurns first n table v)
    (busId : Byte) (bytes : List Byte) : TakesTurns first n table (specPoll busId n table v bytes) := by
  induction bytes generalizing v with
  | nil => exact h
  | cons b rest ih => exact ih (h.specPollByte busId b)

/-! ### How the input is divided (43_poll_fsm.md R96) -/

/-- Where the closed-form `poll` gets from `s` over the bytes available and those still to arrive. -/
def finalView (s : State) : PollView := specPollFrom s (s.transport.input ++ arrivingBytes s.env)

theorem finalView_drained {s : State} (hb : s.transport.input = []) (hv : arrivingBytes s.env = []) :
    finalView s = pollView s := by
  rw [finalView, hb, hv]
  rfl

theorem EnvAfterBlock.arrivingBytes {s : State} {env : List EnvMove} (h : EnvAfterBlock s env) :
    arrivingBytes env = arrivingBytes s.env := by
  obtain rfl | h := h
  · rfl
  · rw [h]
    rfl

/-- POLL changes nothing but whether a `poll` is in progress, and the statuses. -/
theorem Effect.poll {i : Instr} {s t : State} (he : Effect s i t) (hi : i = .poll) :
    t = { s with polling := t.polling, statuses := t.statuses } := by
  cases he with
  | rejected => rfl
  | returned => rfl
  | entered => rfl
  | codec i c hc => obtain ⟨f, rfl⟩ | ⟨id, v, k, rfl⟩ := hc <;> cases hi
  | ignored i b _ hc => obtain ⟨rfl, -⟩ | ⟨rfl, -⟩ := hc <;> cases hi
  | output b => exact nomatch (decodeTxByte_format b).symm.trans (congrArg Instr.format hi)
  | _ => cases hi

theorem eq_poll_of_pollsOrArrives {c : HostCall} (h : pollsOrArrives (.call c) = true) : c = .poll := by
  cases c with
  | poll => rfl
  | initializeDevice busId n => cases h
  | setSensorData slot id value => cases h

/-- A step moves bytes from the schedule to the input, or from the input to the closed-form `poll`, and never changes where that
gets in the end. -/
theorem Stepped.keeps_finalView {s t : State} (h : Stepped s t) (hs : Inv s)
    (hm : ∀ m ∈ s.env, pollsOrArrives m = true) : finalView t = finalView s ∧ t.table = s.table := by
  have head {m : EnvMove} {rest : List EnvMove} (hv : s.env = m :: rest) : pollsOrArrives m = true :=
    hm m (hv ▸ List.mem_cons_self)
  cases h with
  | unit u i t hu => exact nomatch hs.unit_none.symm.trans hu
  | call c rest t hu hp hv he =>
    obtain rfl := eq_poll_of_pollsOrArrives (head hv)
    rw [he.poll rfl, finalView, finalView, hv]
    exact ⟨rfl, rfl⟩
  | input b rest env t hu hp hb hv he =>
    have htaken := he.byteTaken
    have hdiff : DiffersByPoll (s.setEnv env) t := htaken.differsByPoll (hs.of_sameBlock rfl)
    have hview : pollView t = specPollFrom (s.setEnv env) [b] := htaken.pollView rfl
    have henv : t.env = env := hdiff.env
    refine ⟨?_, hdiff.table⟩
    rw [finalView, finalView, htaken.input, henv, hv.arrivingBytes, hb]
    exact hdiff.specPollFrom hview _
  | returned env hu hp hb hf hv =>
    rw [finalView, finalView, hv.arrivingBytes]
    exact ⟨rfl, rfl⟩
  | held env hu hw hv =>
    obtain hv | hv := hv
    · rw [finalView, finalView, hv.arrivingBytes]
      exact ⟨rfl, rfl⟩
    · cases head hv
  | arrived bytes rest hu hv =>
    have harriving : arrivingBytes s.env = bytes ++ arrivingBytes rest := by
      obtain hv | hv := hv <;> rw [hv] <;> rfl
    rw [finalView, finalView, harriving, ← List.append_assoc]
    exact ⟨rfl, rfl⟩
  | echoed n rest hu hv => cases head hv
  | abandoned rest hu hh ha hv => cases head hv
  | reset rest hu hv => cases head hv

/-- A state on the way to a view, by polls and arrivals alone, with a fixed table. -/
structure OnTheWay (view : PollView) (table : Table) (s : State) : Prop where
  inv : Inv s
  moves : ∀ m ∈ s.env, pollsOrArrives m = true
  view : finalView s = view
  table : s.table = table

theorem OnTheWay.step {view : PollView} {table : Table} {s : State} (h : OnTheWay view table s) :
    ∃ t, step s = .next t ∧ OnTheWay view table t := by
  obtain ⟨t, ht⟩ := step_answers h.inv.unit_none h.inv.cursorHasSlot
  have hst := step_stepped s t ht
  obtain ⟨hview, htable⟩ := hst.keeps_finalView h.inv h.moves
  exact ⟨t, ht, {
    inv := h.inv.of_stepped hst
    moves := fun m hm => h.moves m (hst.env_suffix.subset hm)
    view := hview.trans h.view
    table := htable.trans h.table }⟩

theorem OnTheWay.run {view : PollView} {table : Table} {s t : State} {k : Nat} (h : OnTheWay view table s)
    (ht : Sys2Proof.core.run k s = .next t) : OnTheWay view table t := by
  obtain ⟨u, hu, hway⟩ := run_keeps (fun _ => OnTheWay.step) k s h
  cases hu.symm.trans ht
  exact hway

/-- Once every byte has arrived and has been read, the block stands where the way leads. -/
theorem OnTheWay.arrives {view : PollView} {table : Table} {s : State} (h : OnTheWay view table s)
    (hb : s.transport.input = []) (hv : arrivingBytes s.env = []) : pollView s = view ∧ s.table = table :=
  ⟨(finalView_drained hb hv).symm.trans h.view, h.table⟩

/-- Two states of one view and one table. -/
theorem eq_of_pollView_eq {t u : State} {view : PollView} {table : Table} (ht : pollView t = view ∧ t.table = table)
    (hu : pollView u = view ∧ u.table = table) :
    u.trace = t.trace ∧ u.cursor = t.cursor ∧ u.fsm = t.fsm ∧ u.table = t.table := by
  have hv := hu.1.trans ht.1.symm
  exact ⟨congrArg PollView.events hv, BitVec.eq_of_toNat_eq (congrArg PollView.cursor hv), congrArg PollView.fsm hv,
    hu.2.trans ht.2.symm⟩

/-- Some run from `s` reads every byte available and every byte still to arrive. -/
def ReadsOut (s : State) : Prop :=
  ∃ (k : Nat) (t : State), Sys2Proof.core.run k s = .next t ∧ t.transport.input = [] ∧ arrivingBytes t.env = []

theorem ReadsOut.of_run {s t : State} {k : Nat} (h : Sys2Proof.core.run k s = .next t) (ht : ReadsOut t) : ReadsOut s := by
  obtain ⟨m, u, hu, hdone⟩ := ht
  exact ⟨k + m, u, (run_add k m s t h).trans hu, hdone⟩

theorem ReadsOut.of_step {s t : State} (h : step s = .next t) (ht : ReadsOut t) : ReadsOut s :=
  ht.of_run (k := 1) (run_succ 0 s t h)

/-- A `poll` in progress, with nothing more to arrive, reads the bytes available. -/
theorem readsOut_of_polling {s : State} (h : Inv s) (hp : s.polling = true) (ht : BlockTurn s.env s.env)
    (hv : arrivingBytes s.env = []) : ReadsOut s := by
  obtain ⟨t, hrun, hreads⟩ := run_reads s.transport.input s h hp ht rfl
  exact ⟨_, t, hrun, hreads.input_nil, hreads.differs.env ▸ hv⟩

/-- A `poll` call, with nothing more to arrive, reads the bytes available. -/
theorem readsOut_of_call {s : State} (h : Inv s) (hi : s.init = true) (hp : s.polling = false)
    (hv : s.env = [.call .poll]) : ReadsOut s := by
  have hcall := step_call h.unit_none hp hv
  by_cases hb : s.transport.input = []
  · exact .of_step (hcall.trans (exec_poll_returned hi (h.idle_between hp) hb)) ⟨0, _, rfl, hb, rfl⟩
  · have hstep := hcall.trans (exec_poll_entered hi hb)
    exact .of_step hstep (readsOut_of_polling (h.of_stepped (step_stepped _ _ hstep)) rfl (.inl ⟨rfl, rfl⟩) rfl)

/-- An arrival and a later `poll` call, after a `poll` in progress has read the bytes available: the arrival comes in its hold, or
after its return and before the call. -/
theorem readsOut_of_drained {s : State} {ys : List Byte} (h : Inv s) (hp : s.polling = true)
    (hb : s.transport.input = []) (hv : s.env = [.rx ys, .call .poll]) : ReadsOut s := by
  cases hf : s.fsm with
  | awaitingId =>
    have harrival := step_hold_rx h.unit_none hp hb hf hv
    exact .of_step harrival (readsOut_of_polling (h.of_stepped (step_stepped _ _ harrival)) hp
      (.inr (.inr (.inl ⟨.poll, [], rfl, rfl⟩))) rfl)
  | idle =>
    have hreturn := step_pollReturn h.unit_none hp hb hf (.inr (.inr (.inr (.inl ⟨ys, [.call .poll], hv, rfl⟩))))
    have hready := h.of_stepped (step_stepped _ _ hreturn)
    have harrival := step_rx_ready hready.unit_none rfl hv
    exact .of_step hreturn (.of_step harrival
      (readsOut_of_call (hready.of_stepped (step_stepped _ _ harrival)) (h.polling_init hp) rfl rfl))

/-- The same, with bytes available to the `poll` in progress. -/
theorem readsOut_of_divided {s : State} {ys : List Byte} (h : Inv s) (hp : s.polling = true)
    (hv : s.env = [.rx ys, .call .poll]) : ReadsOut s := by
  obtain ⟨t, hrun, hreads⟩ := run_reads s.transport.input s h hp
    (.inr (.inr (.inr (.inl ⟨ys, [.call .poll], hv, rfl⟩)))) rfl
  exact .of_run hrun (readsOut_of_drained hreads.inv (hreads.differs.polling.trans hp) hreads.input_nil
    (hreads.differs.env.trans hv))

end Sys2Proof.Machine

namespace Sys2Proof.Proofs

open Sys2Proof.Machine Sys2Proof.Safety

/-- Settles O57: a wire frame holds no marker, so each of its bytes is discarded. -/
theorem echoedReplyIsDiscarded : Obligations.EchoedReplyIsDiscarded := by
  intro s c hu hv hp hf hb
  have hm := (wellStuffed_flatMap_stuff (frameBytes c)).1
  exact ⟨hm, run_discards hm s hu hv hp hf hb⟩

/-- Settles O32: the two rows, and the run over a marker and such a byte. -/
theorem unansweredIdBytes : Obligations.UnansweredIdBytes :=
  ⟨fun _ _ hf => ⟨exec_rxIdNoslot_matched hf, exec_rxIdMismatch_mismatched hf⟩,
    fun _ _ _ hu hv hp hf hb => run_unanswered hu hv hp hf hb⟩

/-- Settles O54: each byte read does what the closed form says, and the step after the last returns or holds. -/
theorem pollIsTheSpecsPoll : Obligations.PollIsTheSpecsPoll := by
  intro s h hp hv
  obtain ⟨t, hrun, hreads⟩ := run_reads s.transport.input s h hp (.inl ⟨hv, hv⟩) rfl
  obtain ⟨hfsm, hcursor, htrace⟩ := hreads.specPollOf
  refine ⟨t, hrun, ?_, hreads.input_nil, hreads.inv.output_empty, ?_⟩
  · rw [← hfsm, ← hcursor, ← htrace, BitVec.ofNat_toNat, BitVec.setWidth_eq]
    exact hreads.differs
  · rw [← hfsm]
    exact step_drained hreads.inv.unit_none (hreads.differs.polling.trans hp) (hreads.differs.env.trans hv) hreads.input_nil

/-- Settles O55: the closed-form `poll` takes the slots in turn, and the machine's is the closed form. -/
theorem repliesGoRoundRobin : Obligations.RepliesGoRoundRobin := by
  intro s h hp hv hn
  obtain ⟨t, hrun, hreads⟩ := run_reads s.transport.input s h hp (.inl ⟨hv, hv⟩) rfl
  obtain ⟨-, hcursor, htrace⟩ := hreads.specPollOf
  have start : TakesTurns s.cursor.toNat s.activeSlotCount.toNat s.table ⟨s.fsm, s.cursor.toNat, []⟩ :=
    ⟨(Nat.mod_eq_of_lt (h.cursor_lt hn)).symm, rfl⟩
  obtain ⟨hturn, hwritten⟩ := start.specPoll s.busId s.transport.input
  exact ⟨t, (specPollOf s).events, hrun, htrace, hcursor.trans hturn, hwritten⟩

/-- Settles O56: polls and arrivals never change where the closed-form `poll` gets over the bytes available and still to arrive,
and once these are read the block stands there. -/
theorem dividingTheInputChangesNothing : Obligations.DividingTheInputChangesNothing := by
  constructor
  · intro s xs ys j k t u h hxs hys hbytes hrunT htEnv htInput hrunU huEnv huInput
    have wayT : OnTheWay (finalView { s with env := xs }) s.table { s with env := xs } :=
      ⟨h.of_sameBlock rfl, hxs, rfl, rfl⟩
    have wayU : OnTheWay (finalView { s with env := xs }) s.table { s with env := ys } :=
      ⟨h.of_sameBlock rfl, hys, by rw [finalView, ← hbytes]; rfl, rfl⟩
    exact eq_of_pollView_eq ((wayT.run hrunT).arrives htInput (by rw [htEnv]; rfl))
      ((wayU.run hrunU).arrives huInput (by rw [huEnv]; rfl))
  · intro s xs ys h hp
    obtain ⟨t, hrunT, hreads⟩ := run_reads (xs ++ ys)
      { s with env := [], transport := { s.transport with input := xs ++ ys } } (h.of_sameBlock rfl) hp (.inl ⟨rfl, rfl⟩) rfl
    obtain ⟨k, u, hrunU, huInput, huEnv⟩ := readsOut_of_divided
      (s := { s with env := [.rx ys, .call .poll], transport := { s.transport with input := xs } })
      (h.of_sameBlock rfl) hp rfl
    have wayU : OnTheWay (specPollFrom s (xs ++ ys)) s.table
        { s with env := [.rx ys, .call .poll], transport := { s.transport with input := xs } } :=
      ⟨h.of_sameBlock rfl, by simp [pollsOrArrives],
        congrArg (fun bytes => specPollFrom s (xs ++ bytes)) (List.append_nil ys), rfl⟩
    obtain ⟨htrace, hcursor, hfsm, htable⟩ := eq_of_pollView_eq
      ⟨hreads.view, hreads.differs.table⟩ ((wayU.run hrunU).arrives huInput huEnv)
    rw [List.length_append] at hrunT
    exact ⟨k, t, u, hrunT, hrunU, htrace, hcursor, hfsm, htable, hreads.input_nil, huInput⟩

end Sys2Proof.Proofs
end

section
/-! Proofs of the statements about rejections and stops: what a host transaction answers, what may happen before INITIALIZE, that
no step stops, and the bytes that a transmission leaves queued. -/

namespace Sys2Proof.Machine

open Safety

/-! ### What a host transaction answers (60_exceptions.md R108) -/

/-- What a host transaction can end in. -/
inductive HostAnswered (s : State) : HostCall → State → Prop where
  | configured (busId n : Byte) (hi : s.init = false) :
      HostAnswered s (.initializeDevice busId n) { s with
        init := true
        busId := busId
        activeSlotCount := n
        table := List.replicate s.table.length SensorEntry.zero
        cursor := 0
        fsm := .idle
        statuses := s.statuses ++ [.ok] }
  | rejected (c : HostCall) (code : Status) : HostAnswered s c { s with statuses := s.statuses ++ [code] }
  | written (slot : Byte) (id : SensorId) (value : Value) (hi : s.init = true) :
      HostAnswered s (.setSensorData slot id value) { s with
        table := s.table.set slot.toNat ⟨id, value⟩
        statuses := s.statuses ++ [.ok] }
  | returned (hi : s.init = true) : HostAnswered s .poll { s with polling := false, statuses := s.statuses ++ [.ok] }
  | entered (hi : s.init = true) : HostAnswered s .poll { s with polling := true }

theorem decodeHost_injective : Function.Injective decodeHost := fun c d h => by
  cases c <;> cases d <;> cases h <;> rfl

/-- The effect of the row that a host transaction decodes to. -/
theorem Effect.hostAnswered {s t : State} {c : HostCall} (h : Effect s (decodeHost c) t) : HostAnswered s c t := by
  have hformat := decodeHost_format c
  generalize hc : decodeHost c = i at h hformat
  have call {d : HostCall} (hd : decodeHost c = decodeHost d) : d = c := (decodeHost_injective hd).symm
  cases h with
  | configured busId n hi => exact call (d := .initializeDevice busId n) hc ▸ .configured busId n hi
  | rejected d code => exact .rejected c code
  | written slot id value hi => exact call (d := .setSensorData slot id value) hc ▸ .written slot id value hi
  | returned hi => exact call (d := .poll) hc ▸ .returned hi
  | entered hi => exact call (d := .poll) hc ▸ .entered hi
  | codec i k hi => obtain ⟨f, rfl⟩ | ⟨id, v, k, rfl⟩ := hi <;> cases hformat
  | ignored i b hf hi => obtain ⟨rfl, -⟩ | ⟨rfl, -⟩ := hi <;> cases hformat
  | output b => exact nomatch (decodeTxByte_format b).symm.trans hformat
  | _ => cases hformat

/-- Each way a host transaction can end, as R108 sorts it: only the entry of the loop returns no status yet. -/
theorem HostAnswered.entered_or_status {s t : State} {c : HostCall} (h : HostAnswered s c t) :
    (c = .poll ∧ t = { s with polling := true }) ∨
    ∃ code, t.statuses = s.statuses ++ [code] ∧ t.trace = s.trace ∧
      (code ≠ .ok → t = { s with statuses := s.statuses ++ [code] }) := by
  cases h with
  | entered => exact .inl ⟨rfl, rfl⟩
  | rejected c code => exact .inr ⟨code, rfl, rfl, fun _ => rfl⟩
  | _ => exact .inr ⟨.ok, rfl, rfl, fun h => absurd rfl h⟩

/-! ### Before INITIALIZE (60_exceptions.md R109, 70_reset_and_hazards.md R129) -/

/-- Before INITIALIZE the block is as reset leaves it. -/
theorem resetBlock_of_uninit {s : State} (h : Inv s) (hi : s.init = false) : resetBlock s = s := by
  obtain ⟨hbus, hcount, htable⟩ := h.uninit hi
  have hp : s.polling = false := Bool.eq_false_iff.mpr fun hp => nomatch hi.symm.trans (h.polling_init hp)
  have hcursor : s.cursor = 0 := h.cursor_zero (by rw [hcount]; rfl)
  have hfsm : s.fsm = .idle := h.idle_between hp
  have hdir := h.dir_rx
  have hcodec := h.codec_clear
  cases s
  simp only at hi hbus hcount htable hp hcursor hfsm hdir hcodec
  simp only [resetBlock, State.capacity, ← htable, hi, hbus, hcount, hp, hcursor, hfsm, hdir, hcodec]

/-- The frame of a step before INITIALIZE: the transport, the schedule and the statuses may move, and the configuration as an
accepted INITIALIZE sets it; the reset values it writes to the rest of the block stand there already. -/
theorem Stepped.beforeInitialize {s t : State} (h : Stepped s t) (hs : Inv s) (hi : s.init = false) :
    t = { s with transport := t.transport, env := t.env, statuses := t.statuses } ∨
    ∃ busId n rest, s.env = .call (.initializeDevice busId n) :: rest ∧ t = { s with
      init := true
      busId := busId
      activeSlotCount := n
      env := rest
      statuses := t.statuses } := by
  have hblock := resetBlock_of_uninit hs hi
  have hp : s.polling = false := (congrArg State.polling hblock).symm
  have notPolling {p : Prop} (hp' : s.polling = true) : p := nomatch hp.symm.trans hp'
  cases h with
  | unit u i t hu => exact nomatch hs.unit_none.symm.trans hu
  | call c rest t hu _ hv he =>
    cases he.hostAnswered with
    | configured busId n =>
      refine .inr ⟨busId, n, rest, hv, ?_⟩
      have htable : List.replicate s.table.length SensorEntry.zero = s.table := congrArg State.table hblock
      have hcursor : 0 = s.cursor := congrArg State.cursor hblock
      have hfsm : .idle = s.fsm := congrArg State.fsm hblock
      simp only [State.setEnv, htable, hcursor, hfsm]
    | rejected => exact .inl rfl
    | written _ _ _ hinit => exact nomatch hi.symm.trans hinit
    | returned hinit => exact nomatch hi.symm.trans hinit
    | entered hinit => exact nomatch hi.symm.trans hinit
  | input b rest env t hu hp' => exact notPolling hp'
  | returned env hu hp' => exact notPolling hp'
  | abandoned rest hu hh => simp [holding, hp] at hh
  | reset rest hu hv =>
    rw [resetBlock_of_uninit (s := s.setEnv rest) (hs.of_sameBlock rfl) hi]
    exact .inl rfl
  | _ => exact .inl rfl

/-! ### The bytes written, queued and transmitted (60_exceptions.md R123, R124) -/

/-- Every byte written is queued or has been transmitted. -/
def WritesCounted (s : State) : Prop :=
  s.transport.sent + s.transport.output.length = (writtenBytes s.trace).length

theorem WritesCounted.writeBytes {s : State} (h : WritesCounted s) (bytes : List Byte) :
    WritesCounted (writeBytes bytes s) := by
  rw [WritesCounted, writeBytes_writtenBytes, writeBytes_eq]
  simp only [List.length_append, ← Nat.add_assoc, h.symm]

/-- The flush of a transmission moves what is queued to what has been transmitted. -/
theorem WritesCounted.encodeAndSend {s : State} (h : WritesCounted s) (type : Byte) (id : SensorId) (value : Value) :
    WritesCounted (encodeAndSend type id value s) := by
  rw [WritesCounted, encodeAndSend_writtenBytes, encodeAndSend_eq]
  simp only [Transport.drained, List.length_append, List.length_nil, Nat.add_zero, ← Nat.add_assoc, h.symm]

/-- A byte read is no byte written. -/
theorem WritesCounted.read {s : State} (h : WritesCounted s) (b : Byte) (input : List Byte) (env : List EnvMove) :
    WritesCounted { s with
      env := env
      transport := { s.transport with input := input }
      trace := s.trace ++ [.rd b] } := by
  rw [WritesCounted, writtenBytes_append]
  exact h.trans (congrArg List.length (List.append_nil _).symm)

theorem Effect.writesCounted {i : Instr} {s t : State} (he : Effect s i t) (h : WritesCounted s) : WritesCounted t := by
  cases he with
  | sent type id value => exact h.encodeAndSend type id value
  | replied e => exact h.encodeAndSend Config.typeSensor e.id e.value
  | output b => exact h.writeBytes (stuff b)
  | _ => exact h

theorem Stepped.writesCounted {s t : State} (hst : Stepped s t) (h : WritesCounted s) : WritesCounted t := by
  cases hst with
  | unit u i t hu hd he => exact he.writesCounted h
  | call c rest t hu hp hv he => exact he.writesCounted h
  | input b rest env t hu hp hb hv he => exact he.writesCounted (h.read b rest env)
  | _ => exact h

end Sys2Proof.Machine

/-! ### The obligations -/

namespace Sys2Proof.Proofs

open Sys2Proof.Machine Sys2Proof.Safety

/-- Settles O7: the check of each transaction reads `S.init` before the argument. -/
theorem initCheckIsReportedFirst : Obligations.InitCheckIsReportedFirst :=
  ⟨fun busId n _ hi _ => exec_initialize_alreadyInit busId n hi,
    fun slot id value _ hi _ => exec_setSensorData_notInit slot id value hi⟩

/-- Settles O27: the transport is drained of what was queued and of the wire frame. -/
theorem flushLeavesNothingQueued : Obligations.FlushLeavesNothingQueued := by
  intro type id value s t h
  injection h with h
  rw [← h, encodeAndSend_eq, wireFrame_sentFrame]
  refine ⟨rfl, ?sent, rfl, rfl⟩
  case sent => simp only [Transport.drained, List.length_append, Nat.add_assoc]

/-- Settles O51: with no unit request and a slot at the cursor every step answers, and the invariants give both. -/
theorem noStepStops : Obligations.NoStepStops := fun _ h => step_answers h.unit_none h.cursorHasSlot

/-- Settles O48: writes are queued, and a flush transmits the whole queue. -/
theorem writtenBytesAreQueuedOrSent : Obligations.WrittenBytesAreQueuedOrSent :=
  fun s t h => (step_stepped s t h).writesCounted

/-- Settles O8: every host transaction answers, in one of the ways it can end. -/
theorem rejectionChangesNothing : Obligations.RejectionChangesNothing := by
  intro c s
  obtain ⟨t, ht⟩ := exec_decodeHost_answers c s
  exact ⟨t, ht, (exec_effect _ s t ht).hostAnswered.entered_or_status⟩

/-- Settles O6: the `S.init` check rejects both calls, and of a step before INITIALIZE only that call touches the block,
which is as reset leaves it. -/
theorem nothingRunsBeforeInitialize : Obligations.NothingRunsBeforeInitialize := by
  constructor
  · rintro s c hi (rfl | ⟨slot, id, value, rfl⟩)
    · exact exec_poll_notInit hi
    · exact exec_setSensorData_notInit slot id value hi
  · intro s t hs hi h
    obtain ht | ⟨busId, n, rest, hv, ht⟩ := (step_stepped s t h).beforeInitialize hs hi <;> rw [ht]
    · exact ⟨rfl, rfl, rfl, rfl, rfl, .inl ⟨hi, rfl, rfl⟩⟩
    · exact ⟨rfl, rfl, rfl, rfl, rfl, .inr ⟨busId, n, rest, hv, rfl, rfl, rfl⟩⟩

end Sys2Proof.Proofs
end

section
/-! Proofs of the statements about reset and hazards: the values reset leaves, the wait between host transactions, the reply from
a slot never written, and the order of reads, writes and turns on the half-duplex line. -/

namespace Sys2Proof.Machine

open Safety

/-! ### The wait between host transactions (70_reset_and_hazards.md R129; log 11) -/

section Ready

variable {s : State} (hu : s.unit = none) (hp : s.polling = false)
include hu hp

theorem step_ready (hv : s.env = []) : step s = .next s :=
  have hm : nextMove s = blockMove s := by simp only [nextMove, hu, hv]
  step_quiet s s (hm.trans (blockMove_ready s hp))

theorem step_ready_wait {rest : List EnvMove} (hv : s.env = .wait :: rest) : step s = .next { s with env := rest } :=
  have hm : nextMove s = blockMove (s.setEnv rest) := by simp only [nextMove, hu, hv]
  step_quiet s (s.setEnv rest) (hm.trans (blockMove_ready (s.setEnv rest) hp))

/-- Without a `poll` there is no hold for an abandon to end (43_poll_fsm.md R102). -/
theorem step_ready_abandon {rest : List EnvMove} (hv : s.env = .abandon :: rest) : step s = .next { s with env := rest } :=
  have hh : holding s = false := by rw [holding, hp, Bool.false_and, Bool.false_and]
  step_quiet s (s.setEnv rest) (by simp [nextMove, hu, hv, hh, hp])

end Ready

/-! ### The order of events on the half-duplex line (70_reset_and_hazards.md R133) -/

theorem linePhase_append (xs ys : List Event) : linePhase (xs ++ ys) = ys.foldl linePhaseStep (linePhase xs) :=
  List.foldl_append

/-- Writes leave a line in transmit there (20_memory.md R46). -/
theorem foldl_linePhaseStep_wr (bytes : List Byte) :
    (bytes.map Event.wr).foldl linePhaseStep (some .transmit) = some .transmit := by
  induction bytes with
  | nil => rfl
  | cons b rest ih => exact ih

/-- A read leaves a line in receive there. -/
theorem linePhase_append_rd {trace : List Event} (h : linePhase trace = some .receive) (b : Byte) :
    linePhase (trace ++ [.rd b]) = some .receive := by
  rw [linePhase_append, h]
  rfl

/-- A transmission turns a line in receive, writes, flushes and turns it back (41_frame_codec.md R79, R80). -/
theorem linePhase_append_specSendEvents {trace : List Event} (h : linePhase trace = some .receive) (type : Byte)
    (id : SensorId) (value : Value) :
    linePhase (trace ++ specSendEvents type id value) = some .receive := by
  rw [linePhase_append, h, specSendEvents, List.foldl_cons, List.foldl_append]
  have turned : linePhaseStep (some .receive) (.dir .tx) = some .transmit := rfl
  rw [turned, foldl_linePhaseStep_wr]
  rfl

/-- An instruction of the host or of an input byte keeps the line's order and leaves it in receive. -/
theorem Effect.keeps_linePhase {i : Instr} {s t : State} (he : Effect s i t) (hi : i.format = .host ∨ i.format = .rx)
    (h : linePhase s.trace = some .receive) : linePhase t.trace = some .receive := by
  obtain ht | ⟨e, -, -, ht⟩ := he.silent_or_reply hi <;> rw [ht]
  · exact h
  · exact linePhase_append_specSendEvents h 0x10 e.id e.value

/-- With no unit request, whatever a step does keeps the line's order and leaves it in receive. -/
theorem Stepped.keeps_linePhase {s t : State} (hst : Stepped s t) (hu : s.unit = none)
    (h : linePhase s.trace = some .receive) : linePhase t.trace = some .receive := by
  cases hst with
  | unit u i t hu' => exact nomatch hu.symm.trans hu'
  | call c rest t _ _ _ he => exact he.keeps_linePhase (.inl (decodeHost_format c)) h
  | input b rest env t _ _ _ _ he =>
    exact he.keeps_linePhase (.inr (decodeRxByte_format s.rxContext b)) (linePhase_append_rd h b)
  | _ => exact h

end Sys2Proof.Machine

/-! ### The obligations -/

namespace Sys2Proof.Proofs

open Sys2Proof.Machine Sys2Proof.Safety

/-- Settles O52: a byte read keeps a line in receive, and a reply turns it, writes, flushes and turns it back. -/
theorem everyStepKeepsTheLineOrder : Obligations.EveryStepKeepsTheLineOrder :=
  fun s t hu hl h => (step_stepped s t h).keeps_linePhase hu hl

/-- Settles O1: the values are those of `State.resetFor` and of a reset move, and the `S.init` check rejects both calls. -/
theorem resetPutsEveryFieldAtItsValue : Obligations.ResetPutsEveryFieldAtItsValue :=
  ⟨fun _ _ => ⟨rfl, rfl, rfl, rfl, rfl, rfl, rfl⟩, fun _ _ => step_reset,
    fun _ slot id value hi => ⟨exec_poll_notInit hi, exec_setSensorData_notInit slot id value hi⟩⟩

/-- Settles O33: the reply writes the spec's frame of the zero entry, none of whose bytes is escaped. -/
theorem unwrittenSlotSendsZeroEntry : Obligations.UnwrittenSlotSendsZeroEntry := by
  rintro s b hf rfl hn he
  have wire : (specFrame 0x10 0 0).flatMap specStuff = [0x10, 0x00, 0x00, 0x00, 0x00, 0x00, 0x00, 0xEF] := by decide
  refine ⟨_, exec_rxIdReply_matched hf (by bv_omega) he, ?_⟩
  rw [State.setFsm_trace, reply_events, writtenBytes_append, writtenBytes_specReplyEvents, wire]

/-- Settles O59: one lemma for no move due, and one for each move that finds nothing to do. -/
theorem waitBetweenTransactionsChangesNothing : Obligations.WaitBetweenTransactionsChangesNothing :=
  fun _ hu hp => ⟨step_ready hu hp, fun _ hv => hv.elim (step_ready_wait hu hp) (step_ready_abandon hu hp)⟩

end Sys2Proof.Proofs
end

section
/-! Proofs of the statement about what no step changes: `CAPACITY` and the parameters of the block. -/

namespace Sys2Proof.Machine

/-! ### CAPACITY and the parameters (00_scope.md section 4) -/

/-- Every writer of the table keeps its length: one entry is set, or every entry is zeroed. -/
theorem Stepped.table_length {s t : State} (h : Stepped s t) : t.table.length = s.table.length := by
  obtain ht | ⟨_, _, _, _, _, _, _, _, ht⟩ | ⟨_, _, _, _, _, _, ht⟩ | ⟨_, _, ht⟩ := h.table <;> rw [ht]
  case inr.inl => exact List.length_set
  case inr.inr.inl | inr.inr.inr => exact List.length_replicate

theorem encodeAndSend_params (type : Byte) (id : SensorId) (value : Value) (s : State) :
    (encodeAndSend type id value s).params = s.params := by
  rw [encodeAndSend_eq]

theorem reply_params (e : SensorEntry) (s : State) : (reply e s).params = s.params := by
  rw [reply, State.setCursor_params, encodeAndSend_params]

theorem writeBytes_params (bytes : List Byte) (s : State) : (writeBytes bytes s).params = s.params := by
  rw [writeBytes_eq]

theorem Effect.params {i : Instr} {s t : State} (he : Effect s i t) : t.params = s.params := by
  cases he with
  | sent type id value => exact encodeAndSend_params type id value s
  | replied e => exact reply_params e s
  | output b => exact writeBytes_params (stuff b) s
  | _ => rfl

theorem Stepped.params {s t : State} (h : Stepped s t) : t.params = s.params := by
  cases h with
  | unit u i t hu hd he => exact he.params
  | call c rest t hu hp hv he => exact he.params
  | input b rest env t hu hp hb hv he => exact he.params
  | _ => rfl

end Sys2Proof.Machine

/-! ### The obligations -/

namespace Sys2Proof.Proofs

open Sys2Proof.Machine

/-- Settles O45: each way a step can end keeps the length of the table and the parameters. -/
theorem parametersNeverChange : Obligations.ParametersNeverChange := fun s t h =>
  ⟨(step_stepped s t h).table_length, (step_stepped s t h).params⟩

end Sys2Proof.Proofs
end
